-- ==== Sys2Proof/Word.lean ====
section
/-! DEFINITION. The word types: bytes, 32-bit registers, byte strings and 16-byte blocks (R9, R22, R120). -/

namespace Sys2Proof

/-- One byte of a byte string or of RAM (R9). -/
abbrev Byte := BitVec 8

/-- One 32-bit register or bus word (R22). `+` and `-` are the spec's `+_32` and `-_32`. -/
abbrev Word := BitVec 32

/-- A byte string: `s[i]` is byte `i` counting from 0 (R9). -/
abbrev Bytes := List Byte

/-- A 16-byte string: an AES block or a 128-bit key (R3, R38, R120). -/
abbrev Block := Vector Byte 16

/-- A four-byte word of the key schedule (R124). -/
abbrev Quad := Vector Byte 4

end Sys2Proof
end

