-- ==== Sys2Proof/Syntax.lean ====
section
/-! DEFINITION. The commands: one constructor per row of spec/opcode_table.json, each carrying exactly the
command-word fields that R98's "fields read" column gives it. -/

namespace Sys2Proof

/-- The direction bit DIR: 0 = uplink, 1 = downlink (R90, R93). -/
inductive Dir where
  | up
  | down
deriving DecidableEq, Repr

/-- The revision bit REV: 0 = LoRaWAN 1.0.x, 1 = 1.1 (R90, R92). -/
inductive Rev where
  | r10
  | r11
deriving DecidableEq, Repr

/-- The 25 commands of the opcode map (R98). `ks` is KS, `len` is LEN, the flags are F0 and F1 under the names R105 gives them. -/
inductive Instr where
  /-- 0x00 NOP (R110). -/
  | nop
  /-- 0x01 WIPE (R111). -/
  | wipe
  /-- 0x02 SOFT_RESET (R112). -/
  | softReset
  /-- 0x10 AES_ENC (R140). -/
  | aesEnc (ks : Fin 8) (len : Nat)
  /-- 0x11 AES_DEC (R141). -/
  | aesDec (ks : Fin 8) (len : Nat)
  /-- 0x12 CMAC (R142). -/
  | cmac (ks : Fin 8) (len : Nat)
  /-- 0x13 CTR_CRYPT (R143); F0 = single. -/
  | ctrCrypt (ks : Fin 8) (dir : Dir) (single : Bool) (len : Nat)
  /-- 0x14 MIC (R144); F0 = append, F1 = verify. -/
  | mic (ks : Fin 8) (dir : Dir) (rev : Rev) (append : Bool) (verify : Bool) (len : Nat)
  /-- 0x15 KDF (R145). -/
  | kdf (ks : Fin 8) (len : Nat)
  /-- 0x16 DERIVE_SESSION (R146). -/
  | deriveSession (rev : Rev)
  /-- 0x17 DERIVE_JS (R147). -/
  | deriveJs (rev : Rev)
  /-- 0x20 STORE_LE (R180). -/
  | storeLe (len : Nat)
  /-- 0x21 STORE_BE (R181). -/
  | storeBe (len : Nat)
  /-- 0x22 LOAD_LE (R182). -/
  | loadLe (len : Nat)
  /-- 0x23 LOAD_BE (R183). -/
  | loadBe (len : Nat)
  /-- 0x24 FCTRL_PACK (R184). -/
  | fctrlPack
  /-- 0x25 FCTRL_UNPACK (R185). -/
  | fctrlUnpack
  /-- 0x26 BUILD_UPLINK (R186). -/
  | buildUplink (rev : Rev) (len : Nat)
  /-- 0x27 PARSE_DOWNLINK (R192). -/
  | parseDownlink (rev : Rev) (len : Nat)
  /-- 0x28 BUILD_JOINREQ (R196). -/
  | buildJoinreq (rev : Rev)
  /-- 0x29 PARSE_JOINACC (R200). -/
  | parseJoinacc (rev : Rev) (len : Nat)
  /-- 0x2A FCNT_INFER (R210). -/
  | fcntInfer
  /-- 0x2B CHECKSUM (R212); F0 = verify, F1 = append. -/
  | checksum (verify : Bool) (append : Bool)
  /-- 0x30 DC_CHECK (R235); F0 = retransmission. -/
  | dcCheck (retx : Bool)
  /-- 0x38 SEND (R256); F0 = retransmission, F1 = random retransmit delay. -/
  | send (retx : Bool) (rdelay : Bool)
deriving DecidableEq, Repr

end Sys2Proof
end

