-- ==== Sys2Proof/WellFormed.lean ====
section
/-! DEFINITION. Which terms of `Instr` a command word can carry: LEN is an 8-bit field, 0..255 (R90, R96). KS, DIR,
REV and the flags are exact by their types. A LEN outside the range a command accepts is well formed: the command
runs and raises ERR_CONFIG. -/

namespace Sys2Proof

/-- LEN fits the 8-bit field (R96). -/
def lenFits (len : Nat) : Bool := len < 256

/-- The instruction can be encoded in one command word. -/
def Instr.wellFormed : Instr → Bool
  | .nop => true
  | .wipe => true
  | .softReset => true
  | .aesEnc _ len => lenFits len
  | .aesDec _ len => lenFits len
  | .cmac _ len => lenFits len
  | .ctrCrypt _ _ _ len => lenFits len
  | .mic _ _ _ _ _ len => lenFits len
  | .kdf _ len => lenFits len
  | .deriveSession _ => true
  | .deriveJs _ => true
  | .storeLe len => lenFits len
  | .storeBe len => lenFits len
  | .loadLe len => lenFits len
  | .loadBe len => lenFits len
  | .fctrlPack => true
  | .fctrlUnpack => true
  | .buildUplink _ len => lenFits len
  | .parseDownlink _ len => lenFits len
  | .buildJoinreq _ => true
  | .parseJoinacc _ len => lenFits len
  | .fcntInfer => true
  | .checksum _ _ => true
  | .dcCheck _ => true
  | .send _ _ => true

end Sys2Proof
end

