-- ==== Sys2Proof/Decode.lean ====
section
/-! DEFINITION. The command word: its fields (R90), the decoder (R97-R100, total on every word, refusing by name), and
the encoder written from the same table. -/

namespace Sys2Proof

/-- Bits `hi` down to `lo` of a register, as an unsigned number: the spec's `v[hi:lo]` (R9). -/
def bits (v : Word) (hi lo : Nat) : Nat := v.toNat / 2 ^ lo % 2 ^ (hi + 1 - lo)

/-- One bit of a register as 0 or 1: the spec's `v[i]` (R9). -/
def bit (v : Word) (i : Nat) : Nat := bits v i i

/-- One bit of a register as a truth value. -/
def bitSet (v : Word) (i : Nat) : Bool := bit v i == 1

/-- Why a word is no command (R97, R99). -/
inductive DecodeError where
  /-- RSV, bits 31:24, is not 0 (R97). -/
  | reservedBits
  /-- OP is not in the opcode map (R99). -/
  | undefinedOp
deriving DecidableEq, Repr

/-- KS, bits 10:8 (R90, R94). -/
def ksField (w : Word) : Fin 8 := ⟨bits w 10 8, Nat.mod_lt _ (by decide)⟩

/-- DIR, bit 11 (R90, R93). -/
def dirField (w : Word) : Dir := if bitSet w 11 then .down else .up

/-- REV, bit 12 (R90, R92). -/
def revField (w : Word) : Rev := if bitSet w 12 then .r11 else .r10

/-- F0, bit 13 (R90, R95). -/
def f0Field (w : Word) : Bool := bitSet w 13

/-- F1, bit 14 (R90, R95). -/
def f1Field (w : Word) : Bool := bitSet w 14

/-- LEN, bits 23:16 (R90, R96). -/
def lenField (w : Word) : Nat := bits w 23 16

/-- The opcode map: the command that OP selects, with the fields it reads (R98); every other OP is undefined (R99). -/
def decodeOp (op : Nat) (w : Word) : Except DecodeError Instr :=
  match op with
  | 0x00 => .ok .nop
  | 0x01 => .ok .wipe
  | 0x02 => .ok .softReset
  | 0x10 => .ok (.aesEnc (ksField w) (lenField w))
  | 0x11 => .ok (.aesDec (ksField w) (lenField w))
  | 0x12 => .ok (.cmac (ksField w) (lenField w))
  | 0x13 => .ok (.ctrCrypt (ksField w) (dirField w) (f0Field w) (lenField w))
  | 0x14 => .ok (.mic (ksField w) (dirField w) (revField w) (f0Field w) (f1Field w) (lenField w))
  | 0x15 => .ok (.kdf (ksField w) (lenField w))
  | 0x16 => .ok (.deriveSession (revField w))
  | 0x17 => .ok (.deriveJs (revField w))
  | 0x20 => .ok (.storeLe (lenField w))
  | 0x21 => .ok (.storeBe (lenField w))
  | 0x22 => .ok (.loadLe (lenField w))
  | 0x23 => .ok (.loadBe (lenField w))
  | 0x24 => .ok .fctrlPack
  | 0x25 => .ok .fctrlUnpack
  | 0x26 => .ok (.buildUplink (revField w) (lenField w))
  | 0x27 => .ok (.parseDownlink (revField w) (lenField w))
  | 0x28 => .ok (.buildJoinreq (revField w))
  | 0x29 => .ok (.parseJoinacc (revField w) (lenField w))
  | 0x2A => .ok .fcntInfer
  | 0x2B => .ok (.checksum (f0Field w) (f1Field w))
  | 0x30 => .ok (.dcCheck (f0Field w))
  | 0x38 => .ok (.send (f0Field w) (f1Field w))
  | _ => .error .undefinedOp

/-- The decoder: RSV must be 0 (R97), then OP selects the command (R98-R100). -/
def decode (w : Word) : Except DecodeError Instr :=
  if bits w 31 24 ≠ 0 then .error .reservedBits else decodeOp (bits w 7 0) w

/-- DIR as the bit of the command word. -/
def dirBit : Dir → Nat
  | .up => 0
  | .down => 1

/-- REV as the bit of the command word. -/
def revBit : Rev → Nat
  | .r10 => 0
  | .r11 => 1

/-- The word value of R90, `OP | KS<<8 | DIR<<11 | REV<<12 | F0<<13 | F1<<14 | LEN<<16`; the fields are disjoint, so
the OR is a sum. -/
def packWord (op ks dir rev f0 f1 len : Nat) : Word :=
  BitVec.ofNat 32 (op + ks * 2 ^ 8 + dir * 2 ^ 11 + rev * 2 ^ 12 + f0 * 2 ^ 13 + f1 * 2 ^ 14 + len * 2 ^ 16)

/-- The encoder: the word of a well-formed instruction, fields it does not read at 0 (R90, R98, R105). -/
def encode : Instr → Word
  | .nop => packWord 0x00 0 0 0 0 0 0
  | .wipe => packWord 0x01 0 0 0 0 0 0
  | .softReset => packWord 0x02 0 0 0 0 0 0
  | .aesEnc ks len => packWord 0x10 ks 0 0 0 0 len
  | .aesDec ks len => packWord 0x11 ks 0 0 0 0 len
  | .cmac ks len => packWord 0x12 ks 0 0 0 0 len
  | .ctrCrypt ks dir single len => packWord 0x13 ks (dirBit dir) 0 single.toNat 0 len
  | .mic ks dir rev append verify len => packWord 0x14 ks (dirBit dir) (revBit rev) append.toNat verify.toNat len
  | .kdf ks len => packWord 0x15 ks 0 0 0 0 len
  | .deriveSession rev => packWord 0x16 0 0 (revBit rev) 0 0 0
  | .deriveJs rev => packWord 0x17 0 0 (revBit rev) 0 0 0
  | .storeLe len => packWord 0x20 0 0 0 0 0 len
  | .storeBe len => packWord 0x21 0 0 0 0 0 len
  | .loadLe len => packWord 0x22 0 0 0 0 0 len
  | .loadBe len => packWord 0x23 0 0 0 0 0 len
  | .fctrlPack => packWord 0x24 0 0 0 0 0 0
  | .fctrlUnpack => packWord 0x25 0 0 0 0 0 0
  | .buildUplink rev len => packWord 0x26 0 0 (revBit rev) 0 0 len
  | .parseDownlink rev len => packWord 0x27 0 0 (revBit rev) 0 0 len
  | .buildJoinreq rev => packWord 0x28 0 0 (revBit rev) 0 0 0
  | .parseJoinacc rev len => packWord 0x29 0 0 (revBit rev) 0 0 len
  | .fcntInfer => packWord 0x2A 0 0 0 0 0 0
  | .checksum verify append => packWord 0x2B 0 0 0 verify.toNat append.toNat 0
  | .dcCheck retx => packWord 0x30 0 0 0 retx.toNat 0 0
  | .send retx rdelay => packWord 0x38 0 0 0 retx.toNat rdelay.toNat 0

/-- The instruction the decoder reads from an instruction whose low `nbits` bits are those of `w`, the higher ones 0.
Every command is one 32-bit word (R104), so a longer one is none. -/
def decodeTableWord (nbits w : Nat) : Option Instr :=
  let v := w % 2 ^ nbits
  if v < 2 ^ 32 then (decode (BitVec.ofNat 32 v)).toOption else none

end Sys2Proof
end

