-- ==== Sys2Proof/Config.lean ====
section
/-! DEFINITION. The implementation parameters of R8: the fixed ones as numbers, the OPEN ones as opaque constants
(no body, so no proof can lean on a value). -/

namespace Sys2Proof.Config

/-- `RAM_SIZE`: bytes of frame RAM, offsets 0..511 (R8, R41). -/
abbrev ramSize : Nat := 512

/-- `KEY_SLOTS` (R8, R38). -/
abbrev keySlots : Nat := 8

/-- `MAX_FRAME`: the longest frame the block builds, parses, transmits or receives (R8, R179). -/
abbrev maxFrame : Nat := 255

/-- `FOPTS_MAX` (R8, R179). -/
abbrev foptsMax : Nat := 15

/-- `JOINREQ_LEN` (R8, R174). -/
abbrev joinReqLen : Nat := 23

/-- `JOINACC_LEN` without a CFList (R8, R175). -/
abbrev joinAccLen : Nat := 17

/-- `JOINACC_LEN` with the 16-byte CFList (R8, R175). -/
abbrev joinAccCfLen : Nat := 33

/-- Milliseconds per hour, the constant of the duty-cycle interval (R231). -/
abbrev msPerHour : Nat := 3600000

/-- `BLOCK_BASE`, OPEN: the host address of offset 0 of the block (R8, R70, R79). DESIGN CHOICE, safe (log 6). -/
opaque blockBase : Nat

/-- `toa dr len`, OPEN: the time-on-air in ms of a frame of `len` bytes at datarate index `dr`, a total function
(R8, R56, D39). DESIGN CHOICE, safe (log 5). -/
opaque toa : BitVec 8 → Nat → Nat

/-- `NOW0`, OPEN: the value of NOW at power-on (R330, D61). DESIGN CHOICE, safe (log 4). -/
opaque now0 : Word

/-- What the RAM byte at an offset holds at power-on: the spec gives it no value (R41, R330), so it is a free value.
DESIGN CHOICE, safe (log 3). -/
opaque ramPowerOn : Nat → Byte

end Sys2Proof.Config
end

