-- ==== Sys2Proof/Machine/State.lean ====
section
/-! DEFINITION. The state of the block: the tuple `(regs, keys, ram, sched, radio_pending, fault)` of R21, with the
inputs still to come and the outputs of the last step as plain data beside it. -/

namespace Sys2Proof.Machine

/-- The result codes of R300. Their numbers are `codeNumber` of Flags.lean. -/
inductive Code where
  | ok
  | illegal
  | busy
  | config
  | bounds
  | capacity
  | malformed
  | addr
  | mic
  | replay
  | version
  | checksum
  | duty
  | channelBusy
  | tx
  | rxHw
deriving DecidableEq, Repr

/-- SCHED_STATE.FSM (R51, R253). -/
inductive Fsm where
  | idle
  | transmitGuard
  | transmitting
  | awaitingRx1
  | rx1Open
  | awaitingRx2
  | rx2Open
deriving DecidableEq, Repr

/-- The three receive windows (R251, R263, R281). -/
inductive RxWindow where
  | rx1
  | rx2
  | rxC
deriving DecidableEq, Repr

/-- `guard_phase` (R250). -/
inductive GuardPhase where
  /-- Waiting for the random bytes of the retransmit delay. -/
  | randDelay
  /-- Waiting for `d` ms from NOW = `t0`. -/
  | delay (t0 : Word) (d : Nat)
  /-- Waiting for the random byte of the CSMA back-off. -/
  | randBackoff
  /-- A CAD probe is outstanding; `k` probes remain including it. -/
  | probe (k : Nat)
  /-- No guard is in progress. -/
  | launch
deriving DecidableEq, Repr

/-- `radio_pending`: the request emitted and awaiting its event (R55). No rule ever sets `standby`, which R251 says
leaves `none` (DEDUCED, safe, log 13). -/
inductive Pending where
  | none
  | random
  | cad
  | tx
  | rx (w : RxWindow)
  | standby
deriving DecidableEq, Repr

/-- A request to the radio collaborator (R251); `tmo = none` is the spec's ∞. -/
inductive Request where
  | random
  | cad (freq : Word) (dr : Byte)
  | tx (freq : Word) (dr : Byte) (frame : Bytes) (tmo : Nat)
  | rx (w : RxWindow) (freq : Word) (dr : Byte) (tmo : Option Nat)
  | standby
deriving DecidableEq, Repr

/-- An event of the radio collaborator (R251). -/
inductive Event where
  | random (r : Byte)
  | cadClear
  | cadBusy
  | txDone
  | txFail
  | rxDone (frame : Bytes)
  | rxTimeout
  | rxFail
deriving DecidableEq, Repr

/-- The width of a host access (R72). -/
inductive Width where
  | w8
  | w16
  | w32
deriving DecidableEq, Repr

/-- A host bus access at a block offset (R70, R72). A narrow write carries its data in the low bits of `v` (log 10). -/
inductive Access where
  | read (w : Width) (off : BitVec 12)
  | write (w : Width) (off : BitVec 12) (v : Word)
deriving DecidableEq, Repr

/-- What the outside does next: a host access, a radio event or a clock step (R252). DESIGN CHOICE, safe (log 1). -/
inductive Input where
  | host (a : Access)
  | radio (e : Event)
  | clock
deriving DecidableEq, Repr

/-- How the bus answered in the last step (R74, R76). DESIGN CHOICE, safe (log 9). -/
inductive BusOut where
  /-- No host access in the last step. -/
  | idle
  /-- A write was taken. -/
  | done
  /-- A read returned `v`, zero-extended. -/
  | data (v : Word)
  /-- The error response of a bus fault. -/
  | error
deriving DecidableEq, Repr

/-- The registers of R23's map, by name (R25, R26, …). -/
inductive Reg where
  | cmd | status | irqEn | irqStat | src | dst | devAddr | fcnt
  | aux0 | aux1 | aux2 | aux3 | res0 | res1 | res2 | res3
  | valLo | valHi | joinEuiLo | joinEuiHi | devEuiLo | devEuiHi
  | lastJn | nfCntDn | afCntDn | mcfCnt | dnValid | mcfCntMax
  | schedCtrl | dcMsph | lastEnd | lastToa | fcntUp | csmaCfg
  | rx1Delay | rx2Delay | txBuf | txFreq | txDr
  | rx1Freq | rx1Dr | rx2Freq | rx2Dr | rxBuf
  | schedState | sendResult | now | retxCfg | guardMs
deriving DecidableEq, Repr

/-- The stored registers, one field each (R23). STATUS is stored as ERR and RXPEND, its other flags and SCHED_STATE are
derived (R51, R280). Reserved bits of every field are 0. -/
structure Regs where
  cmd : Word
  /-- STATUS.ERR (R25). -/
  err : Code
  /-- STATUS.RXPEND (R25). -/
  rxPend : Bool
  irqEn : Word
  irqStat : Word
  src : Word
  dst : Word
  devAddr : Word
  fcnt : Word
  aux0 : Word
  aux1 : Word
  aux2 : Word
  aux3 : Word
  res0 : Word
  res1 : Word
  res2 : Word
  res3 : Word
  valLo : Word
  valHi : Word
  joinEuiLo : Word
  joinEuiHi : Word
  devEuiLo : Word
  devEuiHi : Word
  lastJn : Word
  nfCntDn : Word
  afCntDn : Word
  mcfCnt : Word
  dnValid : Word
  mcfCntMax : Word
  schedCtrl : Word
  dcMsph : Word
  lastEnd : Word
  lastToa : Word
  fcntUp : Word
  csmaCfg : Word
  rx1Delay : Word
  rx2Delay : Word
  txBuf : Word
  txFreq : Word
  txDr : Word
  rx1Freq : Word
  rx1Dr : Word
  rx2Freq : Word
  rx2Dr : Word
  rxBuf : Word
  sendResult : Word
  now : Word
  retxCfg : Word
  guardMs : Word
deriving DecidableEq, Repr

/-- `snap`: the configuration SEND takes at acceptance (R54, R255). -/
structure Snapshot where
  cls : Nat
  csmaEn : Bool
  difs : Nat
  backoffMax : Nat
  txFreq : Word
  txDr : Byte
  txFrame : Bytes
  rx1Freq : Word
  rx1Dr : Byte
  rx1MaxPl : Nat
  rx2Freq : Word
  rx2Dr : Byte
  rx2MaxPl : Nat
  rx1Delay : Word
  rx2Delay : Word
  guardMs : Word
  rxOff : Nat
  retx : Bool
  rdelay : Bool
  rmin : Nat
  rmax : Nat
deriving DecidableEq, Repr

/-- The scheduler: SCHED_STATE.FSM and the hidden state of R54. -/
structure Sched where
  fsm : Fsm
  snap : Option Snapshot
  guardPhase : GuardPhase
  /-- NOW at TX_DONE. -/
  tEnd : Option Word
  /-- NOW when the current window opened. -/
  tOpen : Option Word
  /-- The random bytes drawn so far for the current draw. -/
  randAcc : Bytes
  /-- RX_BUF.OFF captured when RxC opened while idle (R281). -/
  rxcOff : Nat
deriving DecidableEq, Repr

/-- The frame RAM: (offset, byte) pairs in one canonical form, offsets strictly rising (`Memory.wf`). An unlisted
offset has no value (R41, R330). -/
abbrev Memory := List Host.Cell

/-- The block's state (R21), with the model's own `inputs`, `busOut` and `radioOut` (log 1, log 9). -/
structure State where
  regs : Regs
  /-- KEY[0]..KEY[7] (R38). -/
  keys : Vector Block 8
  ram : Memory
  sched : Sched
  radioPending : Pending
  /-- The bus-fault mark that no later step clears (R74). -/
  busFault : Bool
  /-- What the outside will do, oldest first. -/
  inputs : List Input
  /-- How the bus answered in the last step. -/
  busOut : BusOut
  /-- The requests the last step emitted, oldest first. -/
  radioOut : List Request
deriving DecidableEq, Repr

/-- Why the machine stops. No command raises one, and no state that meets `State.Inv` does: each is the stuck state of
a scheduler state the spec rules out (R273). DESIGN CHOICE, safe (log 12). -/
inductive Fault where
  /-- A scheduler step needs `snap` and it is absent. Raised by urgent steps and radio events; safe. -/
  | snapshotAbsent
  /-- The pending request was answered in an FSM state or guard phase that cannot have emitted it (a RANDOM in phase
  Launch). Raised by radio events; safe. -/
  | eventOutOfPhase
  /-- A reception would be stored past offset 511, which the checks of R256 and R281 exclude. Raised by RX_DONE; safe. -/
  | receptionPastRam
deriving DecidableEq, Repr

/-- Why an instruction has no meaning. -/
inductive Refusal where
  /-- The instruction has no meaning in this model yet. Raised by `exec` only; safe. -/
  | notModelled (mnemonic : String)
deriving DecidableEq, Repr

/-- Every register at reset: 0 (R23, R330), and NOW at the parameter NOW0 (R330; DESIGN CHOICE, safe, log 4). -/
def Regs.reset : Regs where
  cmd := 0
  err := .ok
  rxPend := false
  irqEn := 0
  irqStat := 0
  src := 0
  dst := 0
  devAddr := 0
  fcnt := 0
  aux0 := 0
  aux1 := 0
  aux2 := 0
  aux3 := 0
  res0 := 0
  res1 := 0
  res2 := 0
  res3 := 0
  valLo := 0
  valHi := 0
  joinEuiLo := 0
  joinEuiHi := 0
  devEuiLo := 0
  devEuiHi := 0
  lastJn := 0
  nfCntDn := 0
  afCntDn := 0
  mcfCnt := 0
  dnValid := 0
  mcfCntMax := 0
  schedCtrl := 0
  dcMsph := 0
  lastEnd := 0
  lastToa := 0
  fcntUp := 0
  csmaCfg := 0
  rx1Delay := 0
  rx2Delay := 0
  txBuf := 0
  txFreq := 0
  txDr := 0
  rx1Freq := 0
  rx1Dr := 0
  rx2Freq := 0
  rx2Dr := 0
  rxBuf := 0
  sendResult := 0
  now := Config.now0
  retxCfg := 0
  guardMs := 0

/-- The scheduler at reset: Idle, every hidden field absent, Launch, empty, 0 (R54, R330). -/
def Sched.reset : Sched where
  fsm := .idle
  snap := none
  guardPhase := .launch
  tEnd := none
  tOpen := none
  randAcc := []
  rxcOff := 0

/-- All key slots zero (R38, R330). -/
def zeroKeys : Vector Block 8 := Vector.replicate 8 (Vector.replicate 16 0)

/-- The block right after power-on reset (R330). The model's own fields start empty (DESIGN CHOICE, safe, log 19). -/
def State.reset : State where
  regs := Regs.reset
  keys := zeroKeys
  ram := []
  sched := Sched.reset
  radioPending := .none
  busFault := false
  inputs := []
  busOut := .idle
  radioOut := []

end Sys2Proof.Machine
end

