-- ==== Sys2Proof/Machine/Ops.lean ====
section
/-! DEFINITION. The named operations over bytes, RAM, keys and the radio, and the one epilogue every command ends in:
this block's whole exception entry (R101, R301, R312). -/

namespace Sys2Proof.Machine

/-! ### Byte strings (R9, R170) -/

/-- The least `q` with `q*b >= a`, for `b > 0` (R9). -/
def ceilDiv (a b : Nat) : Nat := (a + b - 1) / b

/-- `LE_n(v)`: byte 0 the least significant (R9). -/
def leBytes : Nat → Nat → Bytes
  | 0, _ => []
  | n + 1, v => BitVec.ofNat 8 v :: leBytes n (v / 256)

/-- `BE_n(v)`: byte 0 the most significant (R9). -/
def beBytes (n v : Nat) : Bytes := (leBytes n v).reverse

/-- `leval(s)` (R9). -/
def leVal : Bytes → Nat
  | [] => 0
  | b :: s => b.toNat + 256 * leVal s

/-- `beval(s)` (R9). -/
def beVal (s : Bytes) : Nat := leVal s.reverse

/-- `0^n` (R9). -/
def zeros (n : Nat) : Bytes := List.replicate n 0

/-- `s[i..j)` (R9). -/
def slice (s : Bytes) (i j : Nat) : Bytes := (s.take j).drop i

/-- `s[i]` (R9); the spec reads only bytes a string has. -/
def byteAt (s : Bytes) (i : Nat) : Byte := s.getD i 0

/-- The 16 bytes `s[i..i+16)` as a block (R120). -/
def blockAt (s : Bytes) (i : Nat) : Block := Vector.ofFn fun k => byteAt s (i + k.val)

/-- The first 16 bytes of a string as a block (R120). -/
def blockOf (s : Bytes) : Block := blockAt s 0

/-- Bytewise exclusive-or of two strings (R9). -/
def xorBytes (s t : Bytes) : Bytes := List.zipWith (· ^^^ ·) s t

/-- A 32-bit register value from a number, modulo 2^32. -/
def word (n : Nat) : Word := BitVec.ofNat 32 n

/-- One bit as a number. -/
def flag (b : Bool) : Nat := if b then 1 else 0

/-! ### Frame RAM (R41) -/

/-- The canonical form: offsets below 512, strictly rising. An unlisted offset has no value, so no entry can equal
what one reads as. -/
def Memory.wf : Memory → Bool
  | [] => true
  | [(a, _)] => a < Config.ramSize
  | (a, _) :: (a', b') :: m => a < a' && Memory.wf ((a', b') :: m)

/-- The byte written at an offset, none where nothing has been written (R330). -/
def Memory.read : Memory → Nat → Option Byte
  | [], _ => none
  | (k, b) :: m, a => if a = k then some b else Memory.read m a

/-- Insert or replace one entry, keeping the offsets rising. -/
def Memory.insert : Memory → Nat → Byte → Memory
  | [], a, b => [(a, b)]
  | (k, c) :: m, a, b =>
    if a < k then (a, b) :: (k, c) :: m else if a = k then (a, b) :: m else (k, c) :: Memory.insert m a b

/-- Write one byte. RAM has no byte past 511 and no rule writes there (log 17). -/
def Memory.write (m : Memory) (a : Nat) (b : Byte) : Memory :=
  if a < Config.ramSize then Memory.insert m a b else m

/-- Write a byte string at an offset, first byte lowest. -/
def Memory.writeBytes : Memory → Nat → Bytes → Memory
  | m, _, [] => m
  | m, a, b :: s => Memory.writeBytes (Memory.write m a b) (a + 1) s

/-- The RAM byte at an offset; one that nothing has written holds its power-on contents, a free value (log 3). -/
def ramByte (s : State) (a : Nat) : Byte := (Memory.read s.ram a).getD (Config.ramPowerOn a)

/-- `MemRead(a, n)` (R10). -/
def memRead (s : State) (a n : Nat) : Bytes := (List.range n).map fun i => ramByte s (a + i)

/-- `MemWrite(a, |b|, b)` (R10). -/
def memWrite (s : State) (a : Nat) (b : Bytes) : State := { s with ram := Memory.writeBytes s.ram a b }

/-- The range `[a, a+n)` is in frame RAM (R103). The offsets are 9-bit fields, so an empty range always is. -/
def inRam (a n : Nat) : Bool := a + n ≤ Config.ramSize

/-! ### Keys (R38-R40) -/

/-- `KEY[n]` (R10). -/
def key (s : State) (n : Fin 8) : Block := s.keys[n]

/-- `KEY[n] <- k` (R10). -/
def setKey (s : State) (n : Fin 8) (k : Block) : State := { s with keys := s.keys.set n k }

/-- The three bits of a register from `lo` up, as a key slot number (R144, R145, R192). -/
def slotField (v : Word) (lo : Nat) : Fin 8 := ⟨v.toNat / 2 ^ lo % 8, Nat.mod_lt _ (by decide)⟩

/-! ### The radio (R251) -/

/-- What a request leaves pending; Standby leaves nothing (R251.1). -/
def Request.pending : Request → Pending
  | .random => .random
  | .cad _ _ => .cad
  | .tx _ _ _ _ => .tx
  | .rx w _ _ _ => .rx w
  | .standby => .none

/-- `emit <Request>` (R10, R251.1). -/
def emit (r : Request) (s : State) : State :=
  { s with radioPending := r.pending, radioOut := s.radioOut ++ [r] }

/-- `if radio_pending = Rx(C): emit Standby` (R112, R256, R263). -/
def closeRxC (s : State) : State :=
  if s.radioPending = .rx .rxC then emit .standby s else s

/-! ### The epilogue of a command (R101) -/

/-- STATUS.ERR <- c, IRQ_STAT.CMDDONE <- 1, and IRQ_STAT.CMDERR <- 1 on an error (R101). -/
def epilogue (c : Code) (s : State) : State :=
  { s with regs := { s.regs with
      err := c
      irqStat := s.regs.irqStat ||| (if c = .ok then 1 else 3) } }

/-- A command ends: with its new state when every check passed, with the old one and its code when one failed, so that
an error writes nothing but STATUS.ERR and IRQ_STAT (R11, R101, R301). -/
def complete (s : State) (r : Except Code State) : Host.Outcome State Fault Refusal :=
  match r with
  | .ok t => .next (epilogue .ok t)
  | .error c => .next (epilogue c s)

/-- Reset by SOFT_RESET: every register, key slot and hidden field to its reset value, but RAM, NOW and the fault mark
(R112, R330). The model's own inputs and outputs are no block state. -/
def softResetState (s : State) : State :=
  { s with
    regs := { Regs.reset with now := s.regs.now }
    keys := zeroKeys
    sched := Sched.reset
    radioPending := .none }

end Sys2Proof.Machine
end

