-- ==== Sys2Proof/Machine/Operands.lean ====
section
/-! DEFINITION. The operand forms: every field of an operand or configuration register that a command or the scheduler
reads, as an unsigned number (R102). -/

namespace Sys2Proof.Machine

/-- SRC, a RAM offset (R28). -/
def srcOff (s : State) : Nat := bits s.regs.src 8 0

/-- DST, a RAM offset (R28). -/
def dstOff (s : State) : Nat := bits s.regs.dst 8 0

/-- `VAL = VAL_HI * 2^32 + VAL_LO` (R33). -/
def valNum (s : State) : Nat := s.regs.valHi.toNat * 2 ^ 32 + s.regs.valLo.toNat

/-- VAL_LO <- v[31:0]; VAL_HI <- v[63:32] (R182). -/
def setVal (s : State) (v : Nat) : State :=
  { s with regs := { s.regs with valLo := word v, valHi := word (v / 2 ^ 32) } }

/-- `JOINEUI` as a number (R34). -/
def joinEui (s : State) : Nat := s.regs.joinEuiHi.toNat * 2 ^ 32 + s.regs.joinEuiLo.toNat

/-- `DEVEUI` as a number (R34). -/
def devEui (s : State) : Nat := s.regs.devEuiHi.toNat * 2 ^ 32 + s.regs.devEuiLo.toNat

/-- LASTJN.JN (R35). -/
def lastJnJn (s : State) : Nat := bits s.regs.lastJn 23 0

/-- LASTJN.VALID (R35). -/
def lastJnValid (s : State) : Bool := bitSet s.regs.lastJn 31

/-- SCHED_CTRL.CLASS (R42). -/
def ctrlClass (s : State) : Nat := bits s.regs.schedCtrl 1 0

/-- SCHED_CTRL.DC_EN (R42). -/
def dcEn (s : State) : Bool := bitSet s.regs.schedCtrl 2

/-- SCHED_CTRL.CSMA_EN (R42). -/
def csmaEn (s : State) : Bool := bitSet s.regs.schedCtrl 3

/-- TX_BUF.OFF (R48). -/
def txOff (s : State) : Nat := bits s.regs.txBuf 8 0

/-- TX_BUF.LEN (R48). -/
def txLen (s : State) : Nat := bits s.regs.txBuf 23 16

/-- RX_BUF.OFF (R50). -/
def rxOff (s : State) : Nat := bits s.regs.rxBuf 8 0

/-- RX_BUF.LEN <- n (R50, R266). -/
def setRxLen (v : Word) (n : Nat) : Word := word (bits v 8 0 + n % 256 * 2 ^ 16)

/-- RX1_DR or RX2_DR bits 7:0, and TX_DR bits 7:0: a datarate index (R48, R49). -/
def drIndex (v : Word) : Byte := BitVec.ofNat 8 (bits v 7 0)

/-- RX1_DR or RX2_DR bits 15:8: the largest legal payload (R49). -/
def drMaxPl (v : Word) : Nat := bits v 15 8

/-- RETX_CFG.MIN (R53). -/
def retxMin (s : State) : Nat := bits s.regs.retxCfg 15 0

/-- RETX_CFG.MAX (R53). -/
def retxMax (s : State) : Nat := bits s.regs.retxCfg 31 16

/-- The room a received frame needs at an offset: `off + 255 <= 512` (R256, R281). -/
def rxFits (off : Nat) : Bool := off + Config.maxFrame ≤ Config.ramSize

/-- `NOW -_32 t`, the elapsed time in ms (R9, R342). -/
def elapsed (s : State) (t : Word) : Nat := (s.regs.now - t).toNat

/-- `RES0 <- v` (R32). -/
def setRes0 (s : State) (v : Nat) : State := { s with regs := { s.regs with res0 := word v } }

end Sys2Proof.Machine
end

