-- ==== Sys2Proof/Machine/Flags.lean ====
section
/-! DEFINITION. The flags: result codes as numbers, STATUS and SCHED_STATE as the host reads them, RXC, the interrupt
line, and the words SEND_RESULT and DNVALID are written with (R25, R51, R58, R280, R310). -/

namespace Sys2Proof.Machine

/-- The number of a result code (R300). -/
def codeNumber : Code → Nat
  | .ok => 0
  | .illegal => 1
  | .busy => 2
  | .config => 3
  | .bounds => 4
  | .capacity => 5
  | .malformed => 6
  | .addr => 7
  | .mic => 8
  | .replay => 9
  | .version => 10
  | .checksum => 11
  | .duty => 12
  | .channelBusy => 13
  | .tx => 14
  | .rxHw => 15

/-- SCHED_STATE bits 3:0 (R51). -/
def fsmNumber : Fsm → Nat
  | .idle => 0
  | .transmitGuard => 1
  | .transmitting => 2
  | .awaitingRx1 => 3
  | .rx1Open => 4
  | .awaitingRx2 => 5
  | .rx2Open => 6

/-- STATUS.SBUSY: FSM is not Idle (R25, R51). -/
def sbusy (s : State) : Bool := s.sched.fsm ≠ .idle

/-- The class that RxC follows: the live SCHED_CTRL.CLASS while Idle, the snapshot's otherwise (R280); 0 where an
attempt has no snapshot, which no run reaches (log 12). -/
def applicableClass (s : State) : Nat :=
  if s.sched.fsm = .idle then ctrlClass s else (s.sched.snap.map (·.cls)).getD 0

/-- SCHED_STATE.RXC: 2 RxCOpen, 1 AwaitingRxC, 0 Off (R280). -/
def rxcNumber (s : State) : Nat :=
  if s.radioPending = .rx .rxC then 2 else if applicableClass s = 2 then 1 else 0

/-- STATUS.RXCOPEN (R25, R280). -/
def rxcOpen (s : State) : Bool := rxcNumber s = 2

/-- STATUS as the host reads it (R25). -/
def statusWord (s : State) : Word :=
  word (codeNumber s.regs.err + flag (sbusy s) * 2 ^ 8 + flag s.regs.rxPend * 2 ^ 9 + flag (rxcOpen s) * 2 ^ 10)

/-- SCHED_STATE as the host reads it (R51). -/
def schedStateWord (s : State) : Word := word (fsmNumber s.sched.fsm + rxcNumber s * 2 ^ 4)

/-- The interrupt output: the OR of the enabled status bits, level-sensitive (R310, R311). -/
def irqLine (s : State) : Bool := s.regs.irqStat &&& s.regs.irqEn &&& 0xF ≠ 0

/-- `w | e<<8 | 1<<16`, the outcome word of SEND_RESULT, VALID = 1 (R51, R270). -/
def sendResultWord (w : Nat) (e : Code) : Word := word (w + codeNumber e * 2 ^ 8 + 2 ^ 16)

/-- IRQ_STAT.SENDDONE, bit 2 (R27, R270). -/
def irqSendDone : Word := 4

/-- IRQ_STAT.RXC, bit 3 (R27, R282). -/
def irqRxC : Word := 8

end Sys2Proof.Machine
end

