-- ==== Sys2Proof/Machine/Cipher.lean ====
section
/-! DEFINITION. AES-128 and AES-CMAC (R120-R126, R130, R131). -/

namespace Sys2Proof.Machine

/-! ### GF(2^8) and the S-boxes (R121-R123) -/

/-- `xtime(a)` (R121). -/
def xtime (a : Byte) : Byte := (a <<< 1) ^^^ (if a.getLsbD 7 then 0x1b else 0)

/-- `xtime^i(a)`. -/
def xtimes : Nat → Byte → Byte
  | 0, a => a
  | i + 1, a => xtimes i (xtime a)

/-- `a • b`: the xor of `xtime^i(a)` over the bits `i` set in `b` (R121). -/
def gmul (b a : Byte) : Byte :=
  (List.range 8).foldl (fun acc i => if b.getLsbD i then acc ^^^ xtimes i a else acc) 0

/-- The S-box table of R122, one number per row, column 0 the most significant byte. -/
def sboxRows : List (BitVec 128) :=
  [ 0x637c777bf26b6fc53001672bfed7ab76
  , 0xca82c97dfa5947f0add4a2af9ca472c0
  , 0xb7fd9326363ff7cc34a5e5f171d83115
  , 0x04c723c31896059a071280e2eb27b275
  , 0x09832c1a1b6e5aa0523bd6b329e32f84
  , 0x53d100ed20fcb15b6acbbe394a4c58cf
  , 0xd0efaafb434d338545f9027f503c9fa8
  , 0x51a3408f929d38f5bcb6da2110fff3d2 ]
  ++
  [ 0xcd0c13ec5f974417c4a77e3d645d1973
  , 0x60814fdc222a908846eeb814de5e0bdb
  , 0xe0323a0a4906245cc2d3ac629195e479
  , 0xe7c8376d8dd54ea96c56f4ea657aae08
  , 0xba78252e1ca6b4c6e8dd741f4bbd8b8a
  , 0x703eb5664803f60e613557b986c11d9e
  , 0xe1f8981169d98e949b1e87e9ce5528df
  , 0x8ca1890dbfe6426841992d0fb054bb16 ]

/-- The inverse S-box table of R123, laid out in the same way. -/
def invSboxRows : List (BitVec 128) :=
  [ 0x52096ad53036a538bf40a39e81f3d7fb
  , 0x7ce339829b2fff87348e4344c4dee9cb
  , 0x547b9432a6c2233dee4c950b42fac34e
  , 0x082ea16628d924b2765ba2496d8bd125
  , 0x72f8f66486689816d4a45ccc5d65b692
  , 0x6c704850fdedb9da5e154657a78d9d84
  , 0x90d8ab008cbcd30af7e45805b8b34506
  , 0xd02c1e8fca3f0f02c1afbd0301138a6b ]
  ++
  [ 0x3a9111414f67dcea97f2cfcef0b4e673
  , 0x96ac7422e7ad3585e2f937e81c75df6e
  , 0x47f11a711d29c5896fb7620eaa18be1b
  , 0xfc563e4bc6d279209adbc0fe78cd5af4
  , 0x1fdda8338807c731b11210592780ec5f
  , 0x60517fa919b54a0d2de57a9f93c99cef
  , 0xa0e03b4dae2af5b0c8ebbb3c83539961
  , 0x172b047eba77d626e169146355210c7d ]

/-- Row = high nibble, column = low nibble (R122). -/
def tableByte (rows : List (BitVec 128)) (a : Byte) : Byte :=
  (rows.getD (a.toNat / 16) 0).extractLsb' (8 * (15 - a.toNat % 16)) 8

/-- `SBOX` (R122). -/
def sbox (a : Byte) : Byte := tableByte sboxRows a

/-- `INV_SBOX` (R123). -/
def invSbox (a : Byte) : Byte := tableByte invSboxRows a

/-! ### Key expansion (R124) -/

/-- Bytewise xor of two blocks. -/
def xorBlock (s t : Block) : Block := Vector.zipWith (· ^^^ ·) s t

/-- Bytewise xor of two key words. -/
def xorQuad (s t : Quad) : Quad := Vector.zipWith (· ^^^ ·) s t

/-- The zero key word, never read inside the schedule's 44 words. -/
def zeroQuad : Quad := Vector.replicate 4 0

/-- `RCON[0..10]`; entry 0 is never used (R124). -/
def rcon : List Byte := [0, 0x01, 0x02, 0x04, 0x08, 0x10, 0x20, 0x40, 0x80, 0x1b, 0x36]

/-- `SubWord(RotWord(t))` with `RCON[r]` xored into byte 0 (R124). -/
def subRotWord (t : Quad) (r : Nat) : Quad :=
  #v[sbox t[1] ^^^ rcon.getD r 0, sbox t[2], sbox t[3], sbox t[0]]

/-- `w[i]` from the words before it, for `i` = their number (R124). -/
def nextKeyWord (w : List Quad) : Quad :=
  let i := w.length
  let t := w.getD (i - 1) zeroQuad
  xorQuad (w.getD (i - 4) zeroQuad) (if i % 4 = 0 then subRotWord t (i / 4) else t)

/-- Append `n` key words. -/
def extendKeyWords : Nat → List Quad → List Quad
  | 0, w => w
  | n + 1, w => extendKeyWords n (w ++ [nextKeyWord w])

/-- `w[0..43]` (R124). -/
def keyWords (k : Block) : List Quad :=
  extendKeyWords 40 ((List.finRange 4).map fun i => Vector.ofFn fun j => k[4 * i.val + j.val])

/-- `RoundKey(r)` (R124). -/
def roundKey (w : List Quad) (r : Nat) : Block :=
  Vector.ofFn fun i => (w.getD (4 * r + i.val / 4) zeroQuad)[i.val % 4]

/-! ### The cipher and its inverse (R125, R126) -/

/-- `SubBytes` (R125). -/
def subBytes (s : Block) : Block := s.map sbox

/-- `InvSubBytes` (R126). -/
def invSubBytes (s : Block) : Block := s.map invSbox

/-- `ShiftRows(s)[r+4c] = s[r + 4((c + r) mod 4)]` (R125). -/
def shiftRows (s : Block) : Block :=
  Vector.ofFn fun i => s[i.val % 4 + 4 * ((i.val / 4 + i.val % 4) % 4)]

/-- `InvShiftRows(s)[r+4c] = s[r + 4((c - r) mod 4)]` (R126). -/
def invShiftRows (s : Block) : Block :=
  Vector.ofFn fun i => s[i.val % 4 + 4 * ((i.val / 4 + 4 - i.val % 4) % 4)]

/-- One column's row `r`: `m0•a_r xor m1•a_(r+1) xor m2•a_(r+2) xor m3•a_(r+3)`, rows modulo 4. The rows of R125's and
R126's matrices are the rotations of their first rows. -/
def mixWith (m0 m1 m2 m3 : Byte) (s : Block) : Block :=
  Vector.ofFn fun i =>
    gmul m0 s[4 * (i.val / 4) + i.val % 4] ^^^ gmul m1 s[4 * (i.val / 4) + (i.val % 4 + 1) % 4] ^^^
    gmul m2 s[4 * (i.val / 4) + (i.val % 4 + 2) % 4] ^^^ gmul m3 s[4 * (i.val / 4) + (i.val % 4 + 3) % 4]

/-- `MixColumns` (R125). -/
def mixColumns (s : Block) : Block := mixWith 2 3 1 1 s

/-- `InvMixColumns` (R126). -/
def invMixColumns (s : Block) : Block := mixWith 14 11 13 9 s

/-- Rounds `r`, `r+1`, …, `r+n-1` of the cipher (R125). -/
def encRounds (w : List Quad) : Nat → Nat → Block → Block
  | 0, _, s => s
  | n + 1, r, s => encRounds w n (r + 1) (xorBlock (mixColumns (shiftRows (subBytes s))) (roundKey w r))

/-- `AES_Enc(K, P)` (R125). -/
def aesEnc (k p : Block) : Block :=
  let w := keyWords k
  let s := encRounds w 9 1 (xorBlock p (roundKey w 0))
  xorBlock (shiftRows (subBytes s)) (roundKey w 10)

/-- Rounds `n` down to 1 of the inverse cipher (R126). -/
def decRounds (w : List Quad) : Nat → Block → Block
  | 0, s => s
  | n + 1, s => decRounds w n (invMixColumns (xorBlock (invSubBytes (invShiftRows s)) (roundKey w (n + 1))))

/-- `AES_Dec(K, C)` (R126). -/
def aesDec (k c : Block) : Block :=
  let w := keyWords k
  let s := decRounds w 9 (xorBlock c (roundKey w 10))
  xorBlock (invSubBytes (invShiftRows s)) (roundKey w 0)

/-- ECB over `n` blocks of a byte string (R140, R141). -/
def ecb (f : Block → Block → Block) (k : Block) (n : Nat) (p : Bytes) : Bytes :=
  (List.range n).flatMap fun j => (f k (blockAt p (16 * j))).toList

/-! ### CMAC (R130, R131) -/

/-- `dbl(X)` (R130). -/
def dbl (x : Block) : Block :=
  blockOf (beBytes 16 ((beVal x.toList * 2 % 2 ^ 128) ^^^ (if x[0].getLsbD 7 then 0x87 else 0)))

/-- `K1` (R130). -/
def cmacK1 (k : Block) : Block := dbl (aesEnc k (Vector.replicate 16 0))

/-- `K2` (R130). -/
def cmacK2 (k : Block) : Block := dbl (cmacK1 k)

/-- `M_last` (R131), for `r` the last 1..16 bytes, or none of them for the empty string. -/
def cmacLast (k : Block) (r : Bytes) : Block :=
  if r.length = 16 then xorBlock (blockOf r) (cmacK1 k)
  else xorBlock (blockOf (r ++ [0x80] ++ zeros (15 - r.length))) (cmacK2 k)

/-- `CMAC(K, M)` (R131). -/
def cmac (k : Block) (m : Bytes) : Block :=
  let n := max 1 (ceilDiv m.length 16)
  let x := (List.range (n - 1)).foldl (fun x i => aesEnc k (xorBlock x (blockAt m (16 * i)))) (Vector.replicate 16 0)
  aesEnc k (xorBlock x (cmacLast k (m.drop (16 * (n - 1)))))

end Sys2Proof.Machine
end

