-- ==== Sys2Proof/Machine/Lorawan.lean ====
section
/-! DEFINITION. The LoRaWAN blocks and transforms: A, B0, B1, the counter-mode transform, the MICs and the key-derivation
blocks (R127-R129, R132, R133). -/

namespace Sys2Proof.Machine

/-- The byte `Dir` of the A and B0 blocks (R93, R127, R128). -/
def dirByte (d : Dir) : Byte := BitVec.ofNat 8 (dirBit d)

/-- `A(ctr_id, dir, devaddr, fcnt, i)` (R127). -/
def blockA (ctrId : Byte) (dir : Dir) (devAddr fcnt : Word) (i : Nat) : Bytes :=
  [0x01, 0x00, 0x00, 0x00, ctrId, dirByte dir] ++ leBytes 4 devAddr.toNat ++ leBytes 4 fcnt.toNat ++
    [0x00, BitVec.ofNat 8 i]

/-- `Keystream(K, ctr_id, dir, devaddr, fcnt, single, n)` (R127): block `j` uses counter byte `j`, or 0 in single mode. -/
def keystream (k : Block) (ctrId : Byte) (dir : Dir) (devAddr fcnt : Word) (single : Bool) (n : Nat) : Bytes :=
  ((List.range (ceilDiv n 16)).flatMap fun j =>
    (aesEnc k (blockOf (blockA ctrId dir devAddr fcnt (if single then 0 else j + 1)))).toList).take n

/-- `Ctr(K, ctr_id, dir, devaddr, fcnt, single, data)` (R127). -/
def ctr (k : Block) (ctrId : Byte) (dir : Dir) (devAddr fcnt : Word) (single : Bool) (data : Bytes) : Bytes :=
  xorBytes data (keystream k ctrId dir devAddr fcnt single data.length)

/-- `B0(dir, devaddr, fcnt, mlen, conf)` (R128). -/
def blockB0 (dir : Dir) (devAddr fcnt : Word) (mlen conf : Nat) : Bytes :=
  [0x49] ++ leBytes 2 conf ++ [0x00, 0x00, dirByte dir] ++ leBytes 4 devAddr.toNat ++ leBytes 4 fcnt.toNat ++
    [0x00, BitVec.ofNat 8 mlen]

/-- `B1(devaddr, fcnt, mlen, conf, txdr, txch)` (R129). -/
def blockB1 (devAddr fcnt : Word) (mlen conf txDr txCh : Nat) : Bytes :=
  [0x49] ++ leBytes 2 conf ++ [BitVec.ofNat 8 txDr, BitVec.ofNat 8 txCh, 0x00] ++ leBytes 4 devAddr.toNat ++
    leBytes 4 fcnt.toNat ++ [0x00, BitVec.ofNat 8 mlen]

/-- `MicNet(K, dir, devaddr, fcnt, conf, msg)` (R132). -/
def micNet (k : Block) (dir : Dir) (devAddr fcnt : Word) (conf : Nat) (msg : Bytes) : Bytes :=
  (cmac k (blockB0 dir devAddr fcnt msg.length conf ++ msg)).toList.take 4

/-- `MicUp11(KF, KS, devaddr, fcnt, conf, txdr, txch, msg)`: `cmacS[0..2) ++ cmacF[0..2)` (R132). -/
def micUp11 (kf ks : Block) (devAddr fcnt : Word) (conf txDr txCh : Nat) (msg : Bytes) : Bytes :=
  (cmac ks (blockB1 devAddr fcnt msg.length conf txDr txCh ++ msg)).toList.take 2 ++
    (cmac kf (blockB0 .up devAddr fcnt msg.length 0 ++ msg)).toList.take 2

/-- `Blk10(c, jn, netid, devnonce)` (R133). -/
def blk10 (c : Byte) (jn netId devNonce : Nat) : Bytes :=
  [c] ++ leBytes 3 jn ++ leBytes 3 netId ++ leBytes 2 devNonce ++ zeros 7

/-- `Blk11(c, jn, joineui, devnonce)` (R133). -/
def blk11 (c : Byte) (jn joinEui devNonce : Nat) : Bytes :=
  [c] ++ leBytes 3 jn ++ leBytes 8 joinEui ++ leBytes 2 devNonce ++ zeros 2

/-- `BlkJS(c, deveui)` (R133). -/
def blkJs (c : Byte) (devEui : Nat) : Bytes := [c] ++ leBytes 8 devEui ++ zeros 7

end Sys2Proof.Machine
end

