-- ==== Sys2Proof/Machine/Codec.lean ====
section
/-! DEFINITION. The codec commands (R180-R212) and the pure functions they use (R177, R178). -/

namespace Sys2Proof.Machine

/-! ### Endian conversion (R180-R183) -/

/-- LEN is a width of the endian unit, 1..8 (R170). -/
def lenWidth (len : Nat) : Bool := 1 ≤ len && len ≤ 8

/-- STORE_LE and STORE_BE: a byte string of LEN bytes to DST (R180, R181). -/
def storeCommand (enc : Nat → Nat → Bytes) (len : Nat) (s : State) : Except Code State :=
  if !lenWidth len then .error .config
  else if !inRam (dstOff s) len then .error .bounds
  else .ok (memWrite s (dstOff s) (enc len (valNum s)))

/-- LOAD_LE and LOAD_BE: LEN bytes at SRC into VAL (R182, R183). -/
def loadCommand (val : Bytes → Nat) (len : Nat) (s : State) : Except Code State :=
  if !lenWidth len then .error .config
  else if !inRam (srcOff s) len then .error .bounds
  else .ok (setVal s (val (memRead s (srcOff s) len)))

/-- STORE_LE (R180). -/
def execStoreLe (len : Nat) (s : State) : Host.Outcome State Fault Refusal :=
  complete s (storeCommand leBytes len s)

/-- STORE_BE (R181). -/
def execStoreBe (len : Nat) (s : State) : Host.Outcome State Fault Refusal :=
  complete s (storeCommand beBytes len s)

/-- LOAD_LE (R182). -/
def execLoadLe (len : Nat) (s : State) : Host.Outcome State Fault Refusal :=
  complete s (loadCommand leVal len s)

/-- LOAD_BE (R183). -/
def execLoadBe (len : Nat) (s : State) : Host.Outcome State Fault Refusal :=
  complete s (loadCommand beVal len s)

/-! ### FCtrl (R172, R184, R185) -/

/-- The FCtrl byte FCTRL_PACK makes of AUX0; its fields are disjoint, so the OR is a sum (R184). -/
def fctrlPackValue (a : Word) : Nat :=
  bit a 0 * 2 ^ 7 + bit a 1 * 2 ^ 6 + bit a 2 * 2 ^ 5 + bit a 3 * 2 ^ 4 + bits a 15 8

/-- The operand layout FCTRL_UNPACK makes of the FCtrl byte AUX0[7:0] (R185). -/
def fctrlUnpackValue (a : Word) : Nat :=
  bit a 7 + bit a 6 * 2 + bit a 5 * 2 ^ 2 + bit a 4 * 2 ^ 3 + bits a 3 0 * 2 ^ 8

/-- FCTRL_PACK (R184). -/
def execFctrlPack (s : State) : Host.Outcome State Fault Refusal :=
  complete s
    (if Config.foptsMax < bits s.regs.aux0 15 8 then .error .config
     else .ok (setRes0 s (fctrlPackValue s.regs.aux0)))

/-- FCTRL_UNPACK (R185). -/
def execFctrlUnpack (s : State) : Host.Outcome State Fault Refusal :=
  complete s (.ok (setRes0 s (fctrlUnpackValue s.regs.aux0)))

/-! ### BUILD_UPLINK (R186) -/

/-- The operands of BUILD_UPLINK in AUX0-AUX2 (R186). -/
structure UplinkOperands where
  mhdr : Byte
  /-- FCtrl bits 7:4. -/
  ctrlHi : Nat
  fol : Nat
  /-- FPort present. -/
  p : Bool
  port : Nat
  /-- The maximum MACPayload length (R179). -/
  maxMac : Nat
  conf : Nat
  txDr : Nat
  txCh : Nat
deriving DecidableEq, Repr

/-- BUILD_UPLINK's operand fields (R186). -/
def uplinkOperands (s : State) : UplinkOperands where
  mhdr := BitVec.ofNat 8 (bits s.regs.aux0 7 0)
  ctrlHi := bits s.regs.aux0 15 12
  fol := bits s.regs.aux0 19 16
  p := bitSet s.regs.aux0 20
  port := bits s.regs.aux0 31 24
  maxMac := bits s.regs.aux1 7 0
  conf := bits s.regs.aux2 15 0
  txDr := bits s.regs.aux2 23 16
  txCh := bits s.regs.aux2 31 24

/-- `macLen = 7 + fol + P + n` (R186). -/
def uplinkMacLen (o : UplinkOperands) (n : Nat) : Nat := 7 + o.fol + flag o.p + n

/-- `total = 1 + macLen + 4` (R186). -/
def uplinkTotal (o : UplinkOperands) (n : Nat) : Nat := 1 + uplinkMacLen o n + 4

/-- The FOpts on the wire: 1.1 FOpts are encrypted under slot 3 in single mode, 1.0 FOpts are in clear (R134, R186). -/
def uplinkFOpts (rev : Rev) (s : State) (fo : Bytes) : Bytes :=
  if rev = .r11 ∧ 0 < fo.length then ctr (key s 3) 0 .up s.regs.devAddr s.regs.fcnt true fo else fo

/-- FPort and the encrypted FRMPayload: slot 3 on port 0, slot 2 on the others (R134, R186). -/
def uplinkPayload (o : UplinkOperands) (s : State) (pl : Bytes) : Bytes :=
  if o.p then
    [BitVec.ofNat 8 o.port] ++
      ctr (key s (if o.port = 0 then 3 else 2)) 0 .up s.regs.devAddr s.regs.fcnt false pl
  else []

/-- `msg`: the frame without its MIC (R171, R186). -/
def uplinkMsg (rev : Rev) (n : Nat) (s : State) : Bytes :=
  let o := uplinkOperands s
  [o.mhdr] ++ leBytes 4 s.regs.devAddr.toNat ++ [BitVec.ofNat 8 (o.ctrlHi * 16 + o.fol)] ++
    leBytes 2 s.regs.fcnt.toNat ++ uplinkFOpts rev s (memRead s (srcOff s) o.fol) ++
    uplinkPayload o s (memRead s (srcOff s + o.fol) n)

/-- `m`: the MIC of an uplink (R186). -/
def uplinkMic (rev : Rev) (s : State) (msg : Bytes) : Bytes :=
  let o := uplinkOperands s
  match rev with
  | .r11 => micUp11 (key s 4) (key s 5) s.regs.devAddr s.regs.fcnt o.conf o.txDr o.txCh msg
  | .r10 => micNet (key s 4) .up s.regs.devAddr s.regs.fcnt 0 msg

/-- The checks and effects of BUILD_UPLINK (R186). -/
def buildUplinkCommand (rev : Rev) (n : Nat) (s : State) : Except Code State :=
  let o := uplinkOperands s
  if !o.p && 0 < n then .error .config
  else if o.p && o.port = 0 && 0 < o.fol then .error .config
  else if !inRam (srcOff s) (o.fol + n) || !inRam (dstOff s) (uplinkTotal o n) then .error .bounds
  else if o.maxMac < uplinkMacLen o n || Config.maxFrame < uplinkTotal o n then .error .capacity
  else
    let msg := uplinkMsg rev n s
    .ok (setRes0 (memWrite s (dstOff s) (msg ++ uplinkMic rev s msg)) (uplinkTotal o n))

/-- BUILD_UPLINK (R186). -/
def execBuildUplink (rev : Rev) (len : Nat) (s : State) : Host.Outcome State Fault Refusal :=
  complete s (buildUplinkCommand rev len s)

/-! ### Frame counters (R177) -/

/-- `Infer(L, f)` (R177). -/
def infer (l : Word) (f : Nat) : Word :=
  let c := word (bits l 31 16 * 2 ^ 16 + f)
  if f < bits l 15 0 then c + word (2 ^ 16) else c

/-- FCNT_INFER (R210). -/
def execFcntInfer (s : State) : Host.Outcome State Fault Refusal :=
  complete s (.ok (setRes0 s (infer s.regs.fcnt (bits s.regs.aux0 15 0)).toNat))

/-! ### PARSE_DOWNLINK (R188-R193) -/

/-- A downlink counter context (R188). -/
inductive Context where
  | nf
  | af
  | mc
deriving DecidableEq, Repr

/-- The context's number in RES1, which is also its bit in DNVALID (R188). -/
def contextNumber : Context → Nat
  | .nf => 0
  | .af => 1
  | .mc => 2

/-- The context's counter register (R188). -/
def contextCounter (c : Context) (s : State) : Word :=
  match c with
  | .nf => s.regs.nfCntDn
  | .af => s.regs.afCntDn
  | .mc => s.regs.mcfCnt

/-- The context's DNVALID bit (R188). -/
def contextValid (c : Context) (s : State) : Bool := bitSet s.regs.dnValid (contextNumber c)

/-- The counter register `<- v` and the DNVALID bit `<- 1` (R191). -/
def commitCounter (c : Context) (v : Word) (s : State) : State :=
  let r := { s.regs with dnValid := s.regs.dnValid ||| word (2 ^ contextNumber c) }
  { s with regs := match c with
      | .nf => { r with nfCntDn := v }
      | .af => { r with afCntDn := v }
      | .mc => { r with mcfCnt := v } }

/-- The parts of a received data frame (R171). -/
structure Downlink where
  n : Nat
  f : Bytes
deriving DecidableEq, Repr

/-- FOptsLen, `f[5][3:0]` (R171, R172). -/
def Downlink.fol (d : Downlink) : Nat := (byteAt d.f 5).toNat % 16

/-- FPort is present (R171). -/
def Downlink.hasPort (d : Downlink) : Bool := 0 < d.n - 12 - d.fol

/-- FPort, 0 when absent (R192). -/
def Downlink.port (d : Downlink) : Nat := if d.hasPort then (byteAt d.f (8 + d.fol)).toNat else 0

/-- The ACK bit, FCtrl bit 5 (R172, R189). -/
def Downlink.ack (d : Downlink) : Bool := (byteAt d.f 5).getLsbD 5

/-- The DevAddr field (R171). -/
def Downlink.addr (d : Downlink) : Nat := leVal (slice d.f 1 5)

/-- The wire FCnt (R171). -/
def Downlink.fcnt (d : Downlink) : Nat := leVal (slice d.f 6 8)

/-- `f[0..n-4)`, what the MIC covers (R171). -/
def Downlink.body (d : Downlink) : Bytes := slice d.f 0 (d.n - 4)

/-- The MIC field (R171). -/
def Downlink.mic (d : Downlink) : Bytes := slice d.f (d.n - 4) d.n

/-- The FOpts field (R171). -/
def Downlink.fopts (d : Downlink) : Bytes := slice d.f 8 (8 + d.fol)

/-- The FRMPayload field (R171, R192). -/
def Downlink.payload (d : Downlink) : Bytes := slice d.f (9 + d.fol) (d.n - 4)

/-- The received frame at SRC. -/
def downlinkAt (n : Nat) (s : State) : Downlink := { n := n, f := memRead s (srcOff s) n }

/-- AUX0[1:0], the window: 3 is a Class B/C window (R192). -/
def dnWindow (s : State) : Nat := bits s.regs.aux0 1 0

/-- AUX0[2], multicast (R192). -/
def dnMulticast (s : State) : Bool := bitSet s.regs.aux0 2

/-- The address the frame must carry: the group's or the device's (R192). -/
def dnAddr (s : State) : Word := if dnMulticast s then s.regs.aux2 else s.regs.devAddr

/-- The counter context (R188). -/
def dnContext (rev : Rev) (d : Downlink) (s : State) : Context :=
  if dnMulticast s then .mc
  else if rev = .r10 then .nf
  else if d.hasPort && 0 < d.port then .af
  else .nf

/-- The reconstructed counter `c` (R177, R192). -/
def dnCounter (rev : Rev) (d : Downlink) (s : State) : Word :=
  infer (contextCounter (dnContext rev d s) s) d.fcnt

/-- The MIC key (R189). -/
def dnMicKey (rev : Rev) (s : State) : Block :=
  if dnMulticast s then key s (slotField s.regs.aux1 0) else if rev = .r11 then key s 5 else key s 4

/-- ConfFCnt: AUX0[31:16] for a 1.1 frame with ACK, else 0 (R189). -/
def dnConf (rev : Rev) (d : Downlink) (s : State) : Nat :=
  if rev = .r11 ∧ d.ack then bits s.regs.aux0 31 16 else 0

/-- The MIC the frame must carry (R189). -/
def dnMic (rev : Rev) (d : Downlink) (s : State) : Bytes :=
  micNet (dnMicKey rev s) .down (dnAddr s) (dnCounter rev d s) (dnConf rev d s) d.body

/-- The replay tests (R190). -/
def dnReplay (rev : Rev) (d : Downlink) (s : State) : Bool :=
  (contextValid (dnContext rev d s) s && (dnCounter rev d s).toNat ≤ (contextCounter (dnContext rev d s) s).toNat) ||
    (dnMulticast s && s.regs.mcfCntMax.toNat < (dnCounter rev d s).toNat)

/-- The FOpts plaintext (R192). -/
def dnFOpts (rev : Rev) (d : Downlink) (s : State) : Bytes :=
  if rev = .r11 ∧ 0 < d.fol then
    ctr (key s 3) (BitVec.ofNat 8 (bits s.regs.aux0 15 8)) .down (dnAddr s) (dnCounter rev d s) true d.fopts
  else d.fopts

/-- The payload key (R134, R192). -/
def dnPayloadKey (d : Downlink) (s : State) : Block :=
  if dnMulticast s then key s (slotField s.regs.aux1 4) else if d.port = 0 then key s 3 else key s 2

/-- The FRMPayload plaintext, empty without an FPort (R192). -/
def dnPayload (rev : Rev) (d : Downlink) (s : State) : Bytes :=
  if d.hasPort then
    ctr (dnPayloadKey d s) 0 .down (dnAddr s) (dnCounter rev d s) false d.payload
  else []

/-- RES0-RES3 of a parsed frame (R193). -/
def setDownlinkResults (rev : Rev) (d : Downlink) (s : State) (t : State) : State :=
  { t with regs := { t.regs with
      res0 := dnCounter rev d s
      res1 := word ((byteAt d.f 0).toNat + (byteAt d.f 5).toNat * 2 ^ 8 + d.port * 2 ^ 16 + flag d.hasPort * 2 ^ 24 +
        contextNumber (dnContext rev d s) * 2 ^ 25)
      res2 := word (d.fol + (dnPayload rev d s).length * 2 ^ 8)
      res3 := dnAddr s } }

/-- The structural checks of PARSE_DOWNLINK on a frame of at least 12 bytes whose FOpts fit (R192). -/
def dnMisplacedMac (d : Downlink) (s : State) : Bool :=
  (d.hasPort && d.port = 0 && 0 < d.fol) ||
    (dnWindow s = 3 && (0 < d.fol || (d.hasPort && d.port = 0)))

/-- The checks and effects of PARSE_DOWNLINK (R192). -/
def parseDownlinkCommand (rev : Rev) (n : Nat) (s : State) : Except Code State :=
  let d := downlinkAt n s
  if dnMulticast s && dnWindow s ≠ 3 then .error .config
  else if !inRam (srcOff s) n || !inRam (dstOff s) n then .error .bounds
  else if n < 12 then .error .malformed
  else if n < 12 + d.fol then .error .malformed
  else if dnMisplacedMac d s then .error .malformed
  else if d.addr ≠ (dnAddr s).toNat then .error .addr
  else if d.mic ≠ dnMic rev d s then .error .mic
  else if dnReplay rev d s then .error .replay
  else
    .ok (setDownlinkResults rev d s
      (memWrite (commitCounter (dnContext rev d s) (dnCounter rev d s) s) (dstOff s)
        (dnFOpts rev d s ++ dnPayload rev d s)))

/-- PARSE_DOWNLINK (R192). -/
def execParseDownlink (rev : Rev) (len : Nat) (s : State) : Host.Outcome State Fault Refusal :=
  complete s (parseDownlinkCommand rev len s)

/-! ### The join (R196-R205) -/

/-- The root key of a join: AppKey in 1.0, NwkKey in 1.1 (R196, R201). -/
def joinKey (rev : Rev) (s : State) : Block :=
  match rev with
  | .r10 => key s 0
  | .r11 => key s 1

/-- The join request without its MIC (R174, R196). -/
def joinReqMsg (s : State) : Bytes :=
  [BitVec.ofNat 8 (bits s.regs.aux0 7 0)] ++ leBytes 8 (joinEui s) ++ leBytes 8 (devEui s) ++
    leBytes 2 (bits s.regs.aux2 15 0)

/-- The join request's MIC (R174, R196). -/
def joinReqMic (rev : Rev) (s : State) : Bytes := (cmac (joinKey rev s) (joinReqMsg s)).toList.take 4

/-- BUILD_JOINREQ (R196). -/
def execBuildJoinreq (rev : Rev) (s : State) : Host.Outcome State Fault Refusal :=
  complete s
    (if !inRam (dstOff s) Config.joinReqLen then .error .bounds
     else .ok (setRes0 (memWrite s (dstOff s) (joinReqMsg s ++ joinReqMic rev s)) (leVal (joinReqMic rev s))))

/-- `Open(f)`: the join accept in clear, opened with AES_Enc (R201). -/
def openJoin (k : Block) (f : Bytes) (n : Nat) : Bytes :=
  [byteAt f 0] ++ (aesEnc k (blockAt f 1)).toList ++
    (if n = Config.joinAccCfLen then (aesEnc k (blockAt f 17)).toList else [])

/-- `JaMic(p)` (R203). -/
def joinAccMic (rev : Rev) (s : State) (p : Bytes) (n : Nat) : Bytes :=
  let m := slice p 0 (n - 4)
  match rev with
  | .r10 => (cmac (key s 0) m).toList.take 4
  | .r11 =>
    (cmac (key s 6) ([0xFF] ++ leBytes 8 (joinEui s) ++ leBytes 2 (bits s.regs.aux2 15 0) ++ m)).toList.take 4

/-- The JoinNonce anti-rollback check (R204). -/
def joinNonceFresh (rev : Rev) (s : State) (jn : Nat) : Bool :=
  !lastJnValid s ||
    match rev with
    | .r10 => jn ≠ lastJnJn s
    | .r11 => lastJnJn s < jn

/-- What an accepted join commits (R205). The multicast context stays (log 15). -/
def commitJoin (p : Bytes) (n : Nat) (s : State) : State :=
  let jn := leVal (slice p 1 4)
  let netId := leVal (slice p 4 7)
  let da := leVal (slice p 7 11)
  let t := memWrite s (dstOff s) p
  { t with regs := { t.regs with
      lastJn := word (2 ^ 31 + jn)
      devAddr := word da
      fcntUp := 0
      nfCntDn := 0
      afCntDn := 0
      dnValid := word (bit t.regs.dnValid 2 * 2 ^ 2)
      res0 := word jn
      res1 := word netId
      res2 := word da
      res3 := word ((byteAt p 11).toNat + (byteAt p 12).toNat * 2 ^ 8 +
        (if n = Config.joinAccCfLen then 1 else 0) * 2 ^ 16) } }

/-- The checks and effects of PARSE_JOINACC (R200). -/
def parseJoinaccCommand (rev : Rev) (n : Nat) (s : State) : Except Code State :=
  let p := openJoin (joinKey rev s) (memRead s (srcOff s) n) n
  if sbusy s then .error .busy
  else if !inRam (srcOff s) n || !inRam (dstOff s) n then .error .bounds
  else if n ≠ Config.joinAccLen ∧ n ≠ Config.joinAccCfLen then .error .malformed
  else if rev = .r11 ∧ (byteAt p 11).getLsbD 7 = false then .error .version
  else if slice p (n - 4) n ≠ joinAccMic rev s p n then .error .mic
  else if !joinNonceFresh rev s (leVal (slice p 1 4)) then .error .replay
  else .ok (commitJoin p n s)

/-- PARSE_JOINACC (R200). -/
def execParseJoinacc (rev : Rev) (len : Nat) (s : State) : Host.Outcome State Fault Refusal :=
  complete s (parseJoinaccCommand rev len s)

/-! ### CHECKSUM (R178, R212) -/

/-- `Checksum16(d)`: the xor of the little-endian 16-bit words, an odd last byte zero-extended (R178). -/
def checksum16 : Bytes → Nat
  | [] => 0
  | [a] => a.toNat
  | a :: b :: d => (a.toNat + 256 * b.toNat) ^^^ checksum16 d

/-- The checks and effects of CHECKSUM (R212). -/
def checksumCommand (verify append : Bool) (s : State) : Except Code State :=
  let d := bits s.regs.aux3 9 0
  if verify && append then .error .config
  else if !inRam (srcOff s) (d + if verify || append then 2 else 0) then .error .bounds
  else
    let cs := checksum16 (memRead s (srcOff s) d)
    if verify && leVal (memRead s (srcOff s + d) 2) ≠ cs then .error .checksum
    else .ok (setRes0 (if append then memWrite s (srcOff s + d) (leBytes 2 cs) else s) cs)

/-- CHECKSUM (R212). -/
def execChecksum (verify append : Bool) (s : State) : Host.Outcome State Fault Refusal :=
  complete s (checksumCommand verify append s)

end Sys2Proof.Machine
end

