-- ==== Sys2Proof/Machine/Control.lean ====
section
/-! DEFINITION. The control commands: NOP, WIPE, SOFT_RESET (R110-R112). -/

namespace Sys2Proof.Machine

/-- NOP (R110). -/
def execNop (s : State) : Host.Outcome State Fault Refusal := complete s (.ok s)

/-- The session state WIPE zeroes (R111). -/
def wipeState (s : State) : State :=
  { s with
    keys := zeroKeys
    regs := { s.regs with
      devAddr := 0
      lastJn := 0
      nfCntDn := 0
      afCntDn := 0
      mcfCnt := 0
      dnValid := 0
      mcfCntMax := 0
      fcntUp := 0
      lastEnd := 0
      lastToa := 0 } }

/-- WIPE (R111). -/
def execWipe (s : State) : Host.Outcome State Fault Refusal :=
  complete s (if sbusy s then .error .busy else .ok (wipeState s))

/-- SOFT_RESET (R112): an open RxC is cancelled, then everything but RAM, NOW and the fault mark takes its reset value. -/
def execSoftReset (s : State) : Host.Outcome State Fault Refusal :=
  complete s (if sbusy s then .error .busy else .ok (softResetState (closeRxC s)))

end Sys2Proof.Machine
end

