-- ==== Sys2Proof/Machine/Crypto.lean ====
section
/-! DEFINITION. The crypto commands (R140-R147). -/

namespace Sys2Proof.Machine

/-- The ECB commands: LEN a multiple of 16, both ranges in RAM, then every block on its own (R140, R141). -/
def ecbCommand (f : Block → Block → Block) (ks : Fin 8) (len : Nat) (s : State) : Except Code State :=
  if len % 16 ≠ 0 then .error .config
  else if !inRam (srcOff s) len || !inRam (dstOff s) len then .error .bounds
  else .ok (memWrite s (dstOff s) (ecb f (key s ks) (len / 16) (memRead s (srcOff s) len)))

/-- AES_ENC (R140). -/
def execAesEnc (ks : Fin 8) (len : Nat) (s : State) : Host.Outcome State Fault Refusal :=
  complete s (ecbCommand aesEnc ks len s)

/-- AES_DEC (R141). -/
def execAesDec (ks : Fin 8) (len : Nat) (s : State) : Host.Outcome State Fault Refusal :=
  complete s (ecbCommand aesDec ks len s)

/-- `RESk <- leval(T[4k..4k+4))` (R142). -/
def setTag (s : State) (t : Bytes) : State :=
  { s with regs := { s.regs with
      res0 := word (leVal (slice t 0 4))
      res1 := word (leVal (slice t 4 8))
      res2 := word (leVal (slice t 8 12))
      res3 := word (leVal (slice t 12 16)) } }

/-- CMAC (R142). -/
def execCmac (ks : Fin 8) (len : Nat) (s : State) : Host.Outcome State Fault Refusal :=
  complete s
    (if !inRam (srcOff s) len then .error .bounds
     else .ok (setTag s (cmac (key s ks) (memRead s (srcOff s) len)).toList))

/-- CTR_CRYPT (R143). -/
def execCtrCrypt (ks : Fin 8) (dir : Dir) (single : Bool) (len : Nat) (s : State) :
    Host.Outcome State Fault Refusal :=
  complete s
    (if single && 16 < len then .error .config
     else if !inRam (srcOff s) len || !inRam (dstOff s) len then .error .bounds
     else .ok (memWrite s (dstOff s)
       (ctr (key s ks) (BitVec.ofNat 8 (bits s.regs.aux0 7 0)) dir s.regs.devAddr s.regs.fcnt single
         (memRead s (srcOff s) len))))

/-- The MIC of R144: MicUp11 for a 1.1 uplink, MicNet otherwise, with ConfFCnt for a 1.1 downlink only. -/
def micValue (ks : Fin 8) (dir : Dir) (rev : Rev) (s : State) (msg : Bytes) : Bytes :=
  if dir = .up ∧ rev = .r11 then
    micUp11 (key s ks) (key s (slotField s.regs.aux1 0)) s.regs.devAddr s.regs.fcnt
      (bits s.regs.aux0 15 0) (bits s.regs.aux0 23 16) (bits s.regs.aux0 31 24) msg
  else
    micNet (key s ks) dir s.regs.devAddr s.regs.fcnt
      (if rev = .r11 ∧ dir = .down then bits s.regs.aux0 15 0 else 0) msg

/-- The checks and effects of MIC (R144). -/
def micCommand (ks : Fin 8) (dir : Dir) (rev : Rev) (append verify : Bool) (len : Nat) (s : State) :
    Except Code State :=
  if append && verify then .error .config
  else if !inRam (srcOff s) (len + if append || verify then 4 else 0) then .error .bounds
  else
    let m := micValue ks dir rev s (memRead s (srcOff s) len)
    if verify && memRead s (srcOff s + len) 4 ≠ m then .error .mic
    else .ok (setRes0 (if append then memWrite s (srcOff s + len) m else s) (leVal m))

/-- MIC (R144). -/
def execMic (ks : Fin 8) (dir : Dir) (rev : Rev) (append verify : Bool) (len : Nat) (s : State) :
    Host.Outcome State Fault Refusal :=
  complete s (micCommand ks dir rev append verify len s)

/-- KDF (R145). -/
def execKdf (ks : Fin 8) (len : Nat) (s : State) : Host.Outcome State Fault Refusal :=
  complete s
    (if 15 < len then .error .config
     else if !inRam (srcOff s) len then .error .bounds
     else
       let blk := [BitVec.ofNat 8 (bits s.regs.aux0 7 0)] ++ memRead s (srcOff s) len ++ zeros (15 - len)
       .ok (setKey s (slotField s.regs.aux1 0) (aesEnc (key s ks) (blockOf blk))))

/-- The keys of a 1.0 join: AppSKey in slot 2, NwkSKey in slots 3, 4 and 5 (R146). -/
def deriveSession10 (s : State) : State :=
  let jn := bits s.regs.aux0 23 0
  let netId := bits s.regs.aux1 23 0
  let dn := bits s.regs.aux2 15 0
  let nwk := aesEnc (key s 0) (blockOf (blk10 0x01 jn netId dn))
  let app := aesEnc (key s 0) (blockOf (blk10 0x02 jn netId dn))
  setKey (setKey (setKey (setKey s 2 app) 3 nwk) 4 nwk) 5 nwk

/-- The keys of a 1.1 join, all computed from the root keys before a slot is written (R146). -/
def deriveSession11 (s : State) : State :=
  let jn := bits s.regs.aux0 23 0
  let dn := bits s.regs.aux2 15 0
  let fNwkSInt := aesEnc (key s 1) (blockOf (blk11 0x01 jn (joinEui s) dn))
  let appS := aesEnc (key s 0) (blockOf (blk11 0x02 jn (joinEui s) dn))
  let sNwkSInt := aesEnc (key s 1) (blockOf (blk11 0x03 jn (joinEui s) dn))
  let nwkSEnc := aesEnc (key s 1) (blockOf (blk11 0x04 jn (joinEui s) dn))
  setKey (setKey (setKey (setKey s 4 fNwkSInt) 2 appS) 5 sNwkSInt) 3 nwkSEnc

/-- DERIVE_SESSION (R146). -/
def execDeriveSession (rev : Rev) (s : State) : Host.Outcome State Fault Refusal :=
  complete s (.ok (match rev with
    | .r10 => deriveSession10 s
    | .r11 => deriveSession11 s))

/-- DERIVE_JS (R147): JSIntKey in slot 6, JSEncKey in slot 7. -/
def execDeriveJs (rev : Rev) (s : State) : Host.Outcome State Fault Refusal :=
  complete s (match rev with
    | .r10 => .error .config
    | .r11 =>
      let ji := aesEnc (key s 1) (blockOf (blkJs 0x06 (devEui s)))
      let je := aesEnc (key s 1) (blockOf (blkJs 0x05 (devEui s)))
      .ok (setKey (setKey s 6 ji) 7 je))

end Sys2Proof.Machine
end

