-- ==== Sys2Proof/Machine/Gate.lean ====
section
/-! DEFINITION. The duty-cycle timer and DC_CHECK (R230-R235). The CSMA arbiter is in Scheduler.lean (R240-R244). -/

namespace Sys2Proof.Machine

/-- `Interval(D, T)` in ms, exact, for `D > 0` (R231). -/
def interval (d t : Nat) : Nat := ceilDiv (Config.msPerHour * t) d

/-- The interval of the registers DC_MSPH and LAST_TOA (R230). -/
def dutyInterval (s : State) : Nat := interval s.regs.dcMsph.toNat s.regs.lastToa.toNat

/-- The time since the last transmission ended (R232). -/
def dutyElapsed (s : State) : Nat := elapsed s s.regs.lastEnd

/-- The timer blocks: the interval has not elapsed (R232). -/
def dutyBlocked (s : State) : Bool := dutyElapsed s < dutyInterval s

/-- RES0, RES1, RES2 of DC_CHECK, each modulo 2^32 (R235). -/
def setGate (s : State) (wait interval blocked : Nat) : State :=
  { s with regs := { s.regs with res0 := word wait, res1 := word interval, res2 := word blocked } }

/-- DC_CHECK (R235). -/
def execDcCheck (retx : Bool) (s : State) : Host.Outcome State Fault Refusal :=
  complete s
    (if !dcEn s then .ok (setGate s 0 0 0)
     else if s.regs.dcMsph = 0 then .error .config
     else
       .ok (setGate s (dutyInterval s - dutyElapsed s) (dutyInterval s) (flag (dutyBlocked s && !retx))))

end Sys2Proof.Machine
end

