-- ==== Sys2Proof/Machine/Scheduler.lean ====
section
/-! DEFINITION. The receive-window scheduler: SEND's acceptance, the guard, the transmission, the windows, RxC, the six
urgent steps and the radio's events (R250-R282). -/

namespace Sys2Proof.Machine

/-! ### Guard, CSMA and launch (R256-R260) -/

/-- The timeout of the transmission, its own time-on-air plus the guard margin (R260). -/
def txTimeout (sn : Snapshot) : Nat := Config.toa sn.txDr sn.txFrame.length + sn.guardMs.toNat

/-- `Launch()` (R260). -/
def launch (sn : Snapshot) (s : State) : State :=
  let t := emit (.tx sn.txFreq sn.txDr sn.txFrame (txTimeout sn)) s
  { t with sched := { t.sched with guardPhase := .launch, fsm := .transmitting } }

/-- `Probes(K)` (R259). -/
def probes (sn : Snapshot) (k : Nat) (s : State) : State :=
  if k = 0 then launch sn s
  else
    let t := emit (.cad sn.txFreq sn.txDr) s
    { t with sched := { t.sched with guardPhase := .probe k } }

/-- `StartCsma()` (R240, R259). -/
def startCsma (sn : Snapshot) (s : State) : State :=
  if !sn.csmaEn then launch sn s
  else if 0 < sn.backoffMax then
    let t := emit .random s
    { t with sched := { t.sched with guardPhase := .randBackoff } }
  else probes sn sn.difs s

/-- The snapshot of R255, taken at SEND acceptance. -/
def takeSnapshot (retx rdelay : Bool) (s : State) : Snapshot where
  cls := ctrlClass s
  csmaEn := csmaEn s
  difs := bits s.regs.csmaCfg 7 0
  backoffMax := bits s.regs.csmaCfg 15 8
  txFreq := s.regs.txFreq
  txDr := drIndex s.regs.txDr
  txFrame := memRead s (txOff s) (txLen s)
  rx1Freq := s.regs.rx1Freq
  rx1Dr := drIndex s.regs.rx1Dr
  rx1MaxPl := drMaxPl s.regs.rx1Dr
  rx2Freq := s.regs.rx2Freq
  rx2Dr := drIndex s.regs.rx2Dr
  rx2MaxPl := drMaxPl s.regs.rx2Dr
  rx1Delay := s.regs.rx1Delay
  rx2Delay := s.regs.rx2Delay
  guardMs := s.regs.guardMs
  rxOff := rxOff s
  retx := retx
  rdelay := rdelay
  rmin := retxMin s
  rmax := retxMax s

/-- The attempt starts: the snapshot is taken, SEND_RESULT cleared, an idle RxC closed, TransmitGuard entered (R256). -/
def enterGuard (sn : Snapshot) (s : State) : State :=
  let t := closeRxC { s with regs := { s.regs with sendResult := 0 } }
  { t with sched := { t.sched with snap := some sn, fsm := .transmitGuard } }

/-- The first request of an attempt: a random byte for the delay, or the CSMA arbiter (R256). -/
def startAttempt (sn : Snapshot) (s : State) : State :=
  let t := enterGuard sn s
  if sn.rdelay then
    let u := emit .random t
    { u with sched := { u.sched with guardPhase := .randDelay, randAcc := [] } }
  else startCsma sn t

/-- The acceptance checks and effects of SEND (R256). -/
def sendCommand (retx rdelay : Bool) (s : State) : Except Code State :=
  if sbusy s || s.regs.rxPend then .error .busy
  else if ctrlClass s = 3 then .error .config
  else if txLen s = 0 then .error .config
  else if rdelay && retxMax s < retxMin s then .error .config
  else if dcEn s && s.regs.dcMsph = 0 then .error .config
  else if !inRam (txOff s) (txLen s) || !rxFits (rxOff s) then .error .bounds
  else if dcEn s && !retx && dutyBlocked s then .error .duty
  else .ok (startAttempt (takeSnapshot retx rdelay s) s)

/-- SEND (R256). -/
def execSend (retx rdelay : Bool) (s : State) : Host.Outcome State Fault Refusal :=
  complete s (sendCommand retx rdelay s)

/-- The random retransmit delay (R258). -/
def retransmitDelay (sn : Snapshot) (acc : Bytes) : Nat := sn.rmin + leVal acc % (sn.rmax - sn.rmin + 1)

/-! ### Outcome (R270) -/

/-- `Outcome(w, e)` (R270). -/
def outcome (w : Nat) (e : Code) (s : State) : State :=
  { s with
    regs := { s.regs with
      sendResult := sendResultWord w e
      irqStat := s.regs.irqStat ||| irqSendDone }
    sched := { s.sched with fsm := .idle, guardPhase := .launch, randAcc := [], snap := none } }

/-! ### Urgent steps (R252) -/

/-- The urgent steps. -/
inductive Urgent where
  | u1
  | u2
  | u3
  | u4
  | u5
  | u6
deriving DecidableEq, Repr

/-- Elapsed time since an absent or present time stamp has reached `d`. -/
def reached (s : State) (t : Option Word) (d : Nat) : Bool :=
  match t with
  | none => false
  | some t => d ≤ elapsed s t

/-- U2's guard: the Rx1 delay has elapsed (R252, R263). -/
def dueRx1 (s : State) : Bool :=
  match s.sched.snap with
  | none => false
  | some sn => s.sched.fsm = .awaitingRx1 && reached s s.sched.tEnd sn.rx1Delay.toNat

/-- U3's guard: the Rx2 delay has elapsed (R252, R263). -/
def dueRx2 (s : State) : Bool :=
  match s.sched.snap with
  | none => false
  | some sn => s.sched.fsm = .awaitingRx2 && reached s s.sched.tEnd sn.rx2Delay.toNat

/-- U4's guard: an open window's deadline, `toa(rxN_dr, rxN_maxpl)` ms after it opened (R252, R264). -/
def deadline (s : State) : Bool :=
  match s.sched.snap with
  | none => false
  | some sn =>
    match s.sched.fsm with
    | .rx1Open => reached s s.sched.tOpen (Config.toa sn.rx1Dr sn.rx1MaxPl)
    | .rx2Open => reached s s.sched.tOpen (Config.toa sn.rx2Dr sn.rx2MaxPl)
    | _ => false

/-- The guards of R252's table. -/
def urgentGuard (s : State) : Urgent → Bool
  | .u1 =>
    match s.sched.guardPhase with
    | .delay t0 d => s.sched.fsm = .transmitGuard && d ≤ elapsed s t0
    | _ => false
  | .u2 => dueRx1 s
  | .u3 => dueRx2 s
  | .u4 => deadline s
  | .u5 =>
    match s.sched.snap with
    | none => false
    | some sn =>
      sn.cls = 2 && (s.sched.fsm = .awaitingRx1 || s.sched.fsm = .awaitingRx2) && s.radioPending = .none &&
        !dueRx1 s && !dueRx2 s
  | .u6 =>
    s.sched.fsm = .idle && ctrlClass s = 2 && !s.regs.rxPend && s.radioPending = .none && rxFits (rxOff s)

/-- The urgent step to take, if one is due (R252). -/
def dueUrgent (s : State) : Option Urgent := [Urgent.u1, .u2, .u3, .u4, .u5, .u6].find? (urgentGuard s)

/-- Open Rx1 or Rx2: close RxC, emit the receive, note the time (R263). -/
def openWindow (w : RxWindow) (freq : Word) (dr : Byte) (sn : Snapshot) (f : Fsm) (s : State) : State :=
  let t := emit (.rx w freq dr (some (Config.toa dr 0 + sn.guardMs.toNat))) (closeRxC s)
  { t with sched := { t.sched with fsm := f, tOpen := some t.regs.now } }

/-- A window closes without a frame: Rx1 leads to AwaitingRx2, Rx2 to outcome (0, 0) (R265). -/
def closeWindow (s : State) : State :=
  if s.sched.fsm = .rx1Open then { s with sched := { s.sched with fsm := .awaitingRx2 } } else outcome 0 .ok s

/-- Open RxC while idle (R281). -/
def openIdleRxC (s : State) : State :=
  emit (.rx .rxC s.regs.rx2Freq (drIndex s.regs.rx2Dr) none)
    { s with sched := { s.sched with rxcOff := rxOff s } }

/-- One urgent step of an attempt, with its snapshot (R252, R257, R263, R264, R268). -/
def attemptUrgent (u : Urgent) (sn : Snapshot) (s : State) : State :=
  match u with
  | .u1 => startCsma sn s
  | .u2 => openWindow .rx1 sn.rx1Freq sn.rx1Dr sn .rx1Open s
  | .u3 => openWindow .rx2 sn.rx2Freq sn.rx2Dr sn .rx2Open s
  | .u4 => closeWindow (emit .standby s)
  | .u5 => emit (.rx .rxC sn.rx2Freq sn.rx2Dr none) s
  | .u6 => openIdleRxC s

/-- Take one urgent step; only U6 needs no snapshot (R252). -/
def runUrgent (u : Urgent) (s : State) : Host.Outcome State Fault Refusal :=
  match u, s.sched.snap with
  | .u6, _ => .next (openIdleRxC s)
  | _, some sn => .next (attemptUrgent u sn s)
  | _, none => .fault .snapshotAbsent

/-! ### Radio events (R251, R257, R259, R262, R265-R268, R282) -/

/-- The event is one that the radio may answer the pending request with (R251); RX_DONE carries 1..255 bytes (log 11). -/
def eventMatches (p : Pending) (e : Event) : Bool :=
  match p, e with
  | .random, .random _ => true
  | .cad, .cadClear => true
  | .cad, .cadBusy => true
  | .tx, .txDone => true
  | .tx, .txFail => true
  | .rx _, .rxDone b => 1 ≤ b.length && b.length ≤ Config.maxFrame
  | .rx _, .rxTimeout => true
  | .rx _, .rxFail => true
  | _, _ => false

/-- RANDOM(r) for the retransmit delay: a second byte is asked for, or the delay starts (R257). -/
def randDelayByte (sn : Snapshot) (r : Byte) (s : State) : State :=
  let acc := s.sched.randAcc ++ [r]
  if acc.length = 1 then emit .random { s with sched := { s.sched with randAcc := acc } }
  else { s with sched := { s.sched with randAcc := [], guardPhase := .delay s.regs.now (retransmitDelay sn acc) } }

/-- RANDOM(r) in TransmitGuard (R257, R259). -/
def onRandom (sn : Snapshot) (r : Byte) (s : State) : Host.Outcome State Fault Refusal :=
  match s.sched.guardPhase with
  | .randDelay => .next (randDelayByte sn r s)
  | .randBackoff => .next (probes sn (sn.difs + r.toNat % (sn.backoffMax + 1)) s)
  | _ => .fault .eventOutOfPhase

/-- CAD_CLEAR: one probe less. CAD_BUSY: the attempt ends (R242, R259). -/
def onCad (sn : Snapshot) (clear : Bool) (s : State) : Host.Outcome State Fault Refusal :=
  match s.sched.guardPhase with
  | .probe k => .next (if clear then probes sn (k - 1) s else outcome 0 .channelBusy s)
  | _ => .fault .eventOutOfPhase

/-- TX_DONE: the time stamps, the counter and AwaitingRx1 (R262). LAST_TOA takes the time-on-air modulo 2^32 (log 5). -/
def onTxDone (sn : Snapshot) (s : State) : State :=
  { s with
    regs := { s.regs with
      lastEnd := s.regs.now
      lastToa := word (Config.toa sn.txDr sn.txFrame.length)
      fcntUp := if sn.retx then s.regs.fcntUp else s.regs.fcntUp + 1 }
    sched := { s.sched with fsm := .awaitingRx1, tEnd := some s.regs.now } }

/-- `MemWrite(off, |b|, b)`, RX_BUF.LEN <- |b|, STATUS.RXPEND <- 1 (R266, R268, R282). -/
def storeFrame (off : Nat) (b : Bytes) (s : State) : State :=
  let t := memWrite s off b
  { t with regs := { t.regs with rxBuf := setRxLen t.regs.rxBuf b.length, rxPend := true } }

/-- A frame received during an attempt: stored at `snap.rx_off`, outcome (N, 0) (R266, R268). -/
def onAttemptFrame (w : Nat) (sn : Snapshot) (b : Bytes) (s : State) : Host.Outcome State Fault Refusal :=
  if inRam sn.rxOff b.length then .next (outcome w .ok (storeFrame sn.rxOff b s)) else .fault .receptionPastRam

/-- A frame received by RxC while idle: stored at `rxc_off`, IRQ_STAT.RXC <- 1 (R282). -/
def onIdleFrame (b : Bytes) (s : State) : Host.Outcome State Fault Refusal :=
  if inRam s.sched.rxcOff b.length then
    let t := storeFrame s.sched.rxcOff b s
    .next { t with regs := { t.regs with irqStat := t.regs.irqStat ||| irqRxC } }
  else .fault .receptionPastRam

/-- The number of a window in SEND_RESULT.WINDOW (R51, R254). -/
def windowNumber : RxWindow → Nat
  | .rx1 => 1
  | .rx2 => 2
  | .rxC => 3

/-- An answer to Rx(1) or Rx(2) (R265-R267). -/
def onWindowEvent (w : RxWindow) (sn : Snapshot) (e : Event) (s : State) : Host.Outcome State Fault Refusal :=
  match e with
  | .rxDone b => onAttemptFrame (windowNumber w) sn b s
  | .rxFail => .next (outcome 0 .rxHw s)
  | _ => .next (closeWindow s)

/-- An answer to Rx(C) during an attempt: a frame ends it, a timeout or a failure leaves the radio free (R268). -/
def onAttemptRxC (sn : Snapshot) (e : Event) (s : State) : Host.Outcome State Fault Refusal :=
  match e with
  | .rxDone b => onAttemptFrame (windowNumber .rxC) sn b s
  | _ => .next s

/-- An answer to Rx(C) while idle (R282). -/
def onIdleRxC (e : Event) (s : State) : Host.Outcome State Fault Refusal :=
  match e with
  | .rxDone b => onIdleFrame b s
  | _ => .next s

/-- The FSM states in which a request can be pending (R273). -/
def requestInPhase (p : Pending) (f : Fsm) : Bool :=
  match p with
  | .random => f = .transmitGuard
  | .cad => f = .transmitGuard
  | .tx => f = .transmitting
  | .rx .rx1 => f = .rx1Open
  | .rx .rx2 => f = .rx2Open
  | .rx .rxC => f = .idle || f = .awaitingRx1 || f = .awaitingRx2
  | .none => false
  | .standby => false

/-- An event during an attempt that answers the request `p` (R257-R268). -/
def onAttemptEvent (p : Pending) (sn : Snapshot) (e : Event) (s : State) : Host.Outcome State Fault Refusal :=
  match e with
  | .random r => onRandom sn r s
  | .cadClear => onCad sn true s
  | .cadBusy => onCad sn false s
  | .txDone => .next (onTxDone sn s)
  | .txFail => .next (outcome 0 .tx s)
  | .rxDone _ | .rxTimeout | .rxFail =>
    match p with
    | .rx .rxC => onAttemptRxC sn e s
    | .rx w => onWindowEvent w sn e s
    | _ => .fault .eventOutOfPhase

/-- A radio event: ignored when it does not match the pending request (R274); otherwise the request is answered, and
RxC handles the event while Idle, the attempt otherwise. -/
def radioEvent (e : Event) (s : State) : Host.Outcome State Fault Refusal :=
  if !eventMatches s.radioPending e then .next s
  else if !requestInPhase s.radioPending s.sched.fsm then .fault .eventOutOfPhase
  else
    let t := { s with radioPending := .none }
    match s.sched.fsm, s.sched.snap with
    | .idle, _ => onIdleRxC e t
    | _, some sn => onAttemptEvent s.radioPending sn e t
    | _, none => .fault .snapshotAbsent

/-- A clock step: `NOW <- NOW +_32 1` (R252). -/
def clockStep (s : State) : State := { s with regs := { s.regs with now := s.regs.now + 1 } }

end Sys2Proof.Machine
end

