-- ==== Sys2Proof/Machine/Dispatch.lean ====
section
/-! DEFINITION. exec: one arm per command, each one direct call of its meaning. -/

namespace Sys2Proof.Machine

def exec (i : Instr) (s : State) : Host.Outcome State Fault Refusal :=
  match i with
  | .nop => Sys2Proof.Machine.execNop s
  | .wipe => Sys2Proof.Machine.execWipe s
  | .softReset => Sys2Proof.Machine.execSoftReset s
  | .aesEnc ks len => Sys2Proof.Machine.execAesEnc ks len s
  | .aesDec ks len => Sys2Proof.Machine.execAesDec ks len s
  | .cmac ks len => Sys2Proof.Machine.execCmac ks len s
  | .ctrCrypt ks dir single len => Sys2Proof.Machine.execCtrCrypt ks dir single len s
  | .mic ks dir rev append verify len => Sys2Proof.Machine.execMic ks dir rev append verify len s
  | .kdf ks len => Sys2Proof.Machine.execKdf ks len s
  | .deriveSession rev => Sys2Proof.Machine.execDeriveSession rev s
  | .deriveJs rev => Sys2Proof.Machine.execDeriveJs rev s
  | .storeLe len => Sys2Proof.Machine.execStoreLe len s
  | .storeBe len => Sys2Proof.Machine.execStoreBe len s
  | .loadLe len => Sys2Proof.Machine.execLoadLe len s
  | .loadBe len => Sys2Proof.Machine.execLoadBe len s
  | .fctrlPack => Sys2Proof.Machine.execFctrlPack s
  | .fctrlUnpack => Sys2Proof.Machine.execFctrlUnpack s
  | .buildUplink rev len => Sys2Proof.Machine.execBuildUplink rev len s
  | .parseDownlink rev len => Sys2Proof.Machine.execParseDownlink rev len s
  | .buildJoinreq rev => Sys2Proof.Machine.execBuildJoinreq rev s
  | .parseJoinacc rev len => Sys2Proof.Machine.execParseJoinacc rev len s
  | .fcntInfer => Sys2Proof.Machine.execFcntInfer s
  | .checksum verify append => Sys2Proof.Machine.execChecksum verify append s
  | .dcCheck retx => Sys2Proof.Machine.execDcCheck retx s
  | .send retx rdelay => Sys2Proof.Machine.execSend retx rdelay s

end Sys2Proof.Machine
end

