-- ==== Sys2Proof/Machine/Bus.lean ====
section
/-! DEFINITION. The host bus: the window's regions, access widths and faults (R70-R74), the register map (R22, R23),
the key and RAM windows (R38, R39, R41), and issuing a command (R101). -/

namespace Sys2Proof.Machine

/-! ### The register map (R22, R23) -/

/-- Offset and register, the rows of R23's map up to SCHED_CTRL. -/
def lowRegMap : List (Nat × Reg) :=
  [ (0x000, .cmd), (0x004, .status), (0x008, .irqEn), (0x00C, .irqStat), (0x010, .src), (0x014, .dst)
  , (0x018, .devAddr), (0x01C, .fcnt), (0x020, .aux0), (0x024, .aux1), (0x028, .aux2), (0x02C, .aux3)
  , (0x030, .res0), (0x034, .res1), (0x038, .res2), (0x03C, .res3), (0x040, .valLo), (0x044, .valHi)
  , (0x048, .joinEuiLo), (0x04C, .joinEuiHi), (0x050, .devEuiLo), (0x054, .devEuiHi), (0x058, .lastJn)
  , (0x05C, .nfCntDn), (0x060, .afCntDn), (0x064, .mcfCnt), (0x068, .dnValid), (0x06C, .mcfCntMax) ]

/-- Offset and register, the scheduler's rows of R23's map. -/
def highRegMap : List (Nat × Reg) :=
  [ (0x080, .schedCtrl), (0x084, .dcMsph), (0x088, .lastEnd), (0x08C, .lastToa), (0x090, .fcntUp), (0x094, .csmaCfg)
  , (0x098, .rx1Delay), (0x09C, .rx2Delay), (0x0A0, .txBuf), (0x0A4, .txFreq), (0x0A8, .txDr), (0x0AC, .rx1Freq)
  , (0x0B0, .rx1Dr), (0x0B4, .rx2Freq), (0x0B8, .rx2Dr), (0x0BC, .rxBuf), (0x0C0, .schedState), (0x0C4, .sendResult)
  , (0x0C8, .now), (0x0CC, .retxCfg), (0x0D0, .guardMs) ]

/-- R23's map. -/
def regMap : List (Nat × Reg) := lowRegMap ++ highRegMap

/-- The register at an offset, none where the map lists none (R22). -/
def regAt (off : Nat) : Option Reg := (regMap.find? (fun p => p.1 = off)).map (·.2)

/-- The bits a host write can set or clear: the RW fields of the register. Registers written in another way (CMD,
STATUS, IRQ_STAT) or not at all (R) have none (R22-R53). -/
def writeMask : Reg → Word
  | .irqEn => 0xF
  | .src | .dst => 0x1FF
  | .lastJn => 0x80FFFFFF
  | .dnValid => 0x7
  | .schedCtrl => 0xF
  | .csmaCfg => 0xFFFF
  | .txBuf => 0x00FF01FF
  | .txDr => 0xFF
  | .rx1Dr | .rx2Dr => 0xFFFF
  | .rxBuf => 0x1FF
  | .cmd | .status | .irqStat | .res0 | .res1 | .res2 | .res3 | .schedState | .sendResult | .now => 0
  | .devAddr | .fcnt | .aux0 | .aux1 | .aux2 | .aux3 | .valLo | .valHi | .joinEuiLo | .joinEuiHi | .devEuiLo
  | .devEuiHi | .nfCntDn | .afCntDn | .mcfCnt | .mcfCntMax | .dcMsph | .lastEnd | .lastToa | .fcntUp | .rx1Delay
  | .rx2Delay | .txFreq | .rx1Freq | .rx2Freq | .retxCfg | .guardMs => 0xFFFFFFFF

/-- The RW* registers, which ignore host writes while STATUS.SBUSY = 1 (R23, R44, R45). -/
def busyLocked : Reg → Bool
  | .lastEnd | .lastToa | .fcntUp => true
  | _ => false

/-- What a host read of a register returns (R23). -/
def readReg (s : State) : Reg → Word
  | .cmd => s.regs.cmd
  | .status => statusWord s
  | .irqEn => s.regs.irqEn
  | .irqStat => s.regs.irqStat
  | .src => s.regs.src
  | .dst => s.regs.dst
  | .devAddr => s.regs.devAddr
  | .fcnt => s.regs.fcnt
  | .aux0 => s.regs.aux0
  | .aux1 => s.regs.aux1
  | .aux2 => s.regs.aux2
  | .aux3 => s.regs.aux3
  | .res0 => s.regs.res0
  | .res1 => s.regs.res1
  | .res2 => s.regs.res2
  | .res3 => s.regs.res3
  | .valLo => s.regs.valLo
  | .valHi => s.regs.valHi
  | .joinEuiLo => s.regs.joinEuiLo
  | .joinEuiHi => s.regs.joinEuiHi
  | .devEuiLo => s.regs.devEuiLo
  | .devEuiHi => s.regs.devEuiHi
  | .lastJn => s.regs.lastJn
  | .nfCntDn => s.regs.nfCntDn
  | .afCntDn => s.regs.afCntDn
  | .mcfCnt => s.regs.mcfCnt
  | .dnValid => s.regs.dnValid
  | .mcfCntMax => s.regs.mcfCntMax
  | .schedCtrl => s.regs.schedCtrl
  | .dcMsph => s.regs.dcMsph
  | .lastEnd => s.regs.lastEnd
  | .lastToa => s.regs.lastToa
  | .fcntUp => s.regs.fcntUp
  | .csmaCfg => s.regs.csmaCfg
  | .rx1Delay => s.regs.rx1Delay
  | .rx2Delay => s.regs.rx2Delay
  | .txBuf => s.regs.txBuf
  | .txFreq => s.regs.txFreq
  | .txDr => s.regs.txDr
  | .rx1Freq => s.regs.rx1Freq
  | .rx1Dr => s.regs.rx1Dr
  | .rx2Freq => s.regs.rx2Freq
  | .rx2Dr => s.regs.rx2Dr
  | .rxBuf => s.regs.rxBuf
  | .schedState => schedStateWord s
  | .sendResult => s.regs.sendResult
  | .now => s.regs.now
  | .retxCfg => s.regs.retxCfg
  | .guardMs => s.regs.guardMs

/-- Put a word into a register's storage; STATUS and SCHED_STATE are not stored as words. -/
def putReg (r : Reg) (v : Word) (g : Regs) : Regs :=
  match r with
  | .cmd => { g with cmd := v }
  | .status => g
  | .irqEn => { g with irqEn := v }
  | .irqStat => { g with irqStat := v }
  | .src => { g with src := v }
  | .dst => { g with dst := v }
  | .devAddr => { g with devAddr := v }
  | .fcnt => { g with fcnt := v }
  | .aux0 => { g with aux0 := v }
  | .aux1 => { g with aux1 := v }
  | .aux2 => { g with aux2 := v }
  | .aux3 => { g with aux3 := v }
  | .res0 => { g with res0 := v }
  | .res1 => { g with res1 := v }
  | .res2 => { g with res2 := v }
  | .res3 => { g with res3 := v }
  | .valLo => { g with valLo := v }
  | .valHi => { g with valHi := v }
  | .joinEuiLo => { g with joinEuiLo := v }
  | .joinEuiHi => { g with joinEuiHi := v }
  | .devEuiLo => { g with devEuiLo := v }
  | .devEuiHi => { g with devEuiHi := v }
  | .lastJn => { g with lastJn := v }
  | .nfCntDn => { g with nfCntDn := v }
  | .afCntDn => { g with afCntDn := v }
  | .mcfCnt => { g with mcfCnt := v }
  | .dnValid => { g with dnValid := v }
  | .mcfCntMax => { g with mcfCntMax := v }
  | .schedCtrl => { g with schedCtrl := v }
  | .dcMsph => { g with dcMsph := v }
  | .lastEnd => { g with lastEnd := v }
  | .lastToa => { g with lastToa := v }
  | .fcntUp => { g with fcntUp := v }
  | .csmaCfg => { g with csmaCfg := v }
  | .rx1Delay => { g with rx1Delay := v }
  | .rx2Delay => { g with rx2Delay := v }
  | .txBuf => { g with txBuf := v }
  | .txFreq => { g with txFreq := v }
  | .txDr => { g with txDr := v }
  | .rx1Freq => { g with rx1Freq := v }
  | .rx1Dr => { g with rx1Dr := v }
  | .rx2Freq => { g with rx2Freq := v }
  | .rx2Dr => { g with rx2Dr := v }
  | .rxBuf => { g with rxBuf := v }
  | .schedState => g
  | .sendResult => { g with sendResult := v }
  | .now => { g with now := v }
  | .retxCfg => { g with retxCfg := v }
  | .guardMs => { g with guardMs := v }

/-- A host write of the RW bits of a register; the other bits keep their value (R22). -/
def writeFields (r : Reg) (v : Word) (s : State) : State :=
  { s with regs := putReg r ((readReg s r &&& ~~~ writeMask r) ||| (v &&& writeMask r)) s.regs }

/-- Writing SCHED_CTRL with CLASS not 2 closes an idle RxC in the same step (R77, R281). -/
def leaveClassC (s : State) : State :=
  if s.sched.fsm = .idle ∧ ctrlClass s ≠ 2 then closeRxC s else s

/-- A host write of any register but CMD (R22, R25, R27, R44, R281). -/
def writeReg (r : Reg) (v : Word) (s : State) : State :=
  match r with
  | .status => if bitSet v 9 then { s with regs := { s.regs with rxPend := false } } else s
  | .irqStat => { s with regs := { s.regs with irqStat := s.regs.irqStat &&& ~~~ (v &&& 0xF) } }
  | .schedCtrl => leaveClassC (writeFields .schedCtrl v s)
  | r => if busyLocked r && sbusy s then s else writeFields r v s

/-! ### Issuing a command (R101) -/

/-- CMD <- w, then the command runs and ends in the epilogue; a word that is no command raises ERR_ILLEGAL (R24, R97,
R99, R101). -/
def issueCommand (w : Word) (s : State) : Host.Outcome State Fault Refusal :=
  let t := { s with regs := { s.regs with cmd := w } }
  match decode w with
  | .ok i => exec i t
  | .error _ => complete t (.error .illegal)

/-! ### Accesses (R70-R74) -/

/-- The bytes an access covers (R72). -/
def widthBytes : Width → Nat
  | .w8 => 1
  | .w16 => 2
  | .w32 => 4

/-- The regions of the window (R70). -/
inductive Region where
  | registers
  | keys
  | ram
  | reserved
deriving DecidableEq, Repr

/-- The region of an offset (R70). -/
def regionOf (off : Nat) : Region :=
  if off < 0x100 then .registers
  else if off < 0x180 then .keys
  else if 0x200 ≤ off ∧ off < 0x400 then .ram
  else .reserved

/-- The access is one the window allows: aligned to its width, and a whole word in the register region (R72, R73; the
unlisted offsets below 0x100 count as register region: DEDUCED, unsafe, log 7). -/
def accessAllowed (w : Width) (off : Nat) : Bool :=
  off % widthBytes w = 0 && (regionOf off ≠ .registers || w = .w32)

/-- A bus fault: nothing changes but the fault mark, and the bus answers an error (R74). -/
def busFault (s : State) : State := { s with busFault := true, busOut := .error }

/-- What a read returns, zero-extended (R22, R38, R70, R72). -/
def readData (w : Width) (off : Nat) (s : State) : Word :=
  match regionOf off with
  | .registers => ((regAt off).map (readReg s)).getD 0
  | .ram => word (leVal (memRead s (off - 0x200) (widthBytes w)))
  | .keys => 0
  | .reserved => 0

/-- A host read: no side effect (R77). -/
def hostRead (w : Width) (off : Nat) (s : State) : State :=
  if accessAllowed w off then { s with busOut := .data (readData w off s) } else busFault s

/-- Write bytes of the key window: offset `16n + j` of the window is byte `j` of KEY[n] (R39). -/
def writeKeyBytes : Nat → Bytes → State → State
  | _, [], s => s
  | k, b :: bs, s =>
    let n : Fin 8 := ⟨k / 16 % 8, Nat.mod_lt _ (by decide)⟩
    writeKeyBytes (k + 1) bs (setKey s n ((key s n).set (k % 16) b (Nat.mod_lt _ (by decide))))

/-- A host write that the window allows (R24, R38, R39, R41, R70). -/
def performWrite (w : Width) (off : Nat) (v : Word) (s : State) : Host.Outcome State Fault Refusal :=
  match regionOf off with
  | .registers =>
    match regAt off with
    | some .cmd => issueCommand v s
    | some r => .next (writeReg r v s)
    | none => .next s
  | .keys => .next (writeKeyBytes (off - 0x100) (leBytes (widthBytes w) v.toNat) s)
  | .ram => .next (memWrite s (off - 0x200) (leBytes (widthBytes w) v.toNat))
  | .reserved => .next s

/-- A host write (R72-R74). -/
def hostWrite (w : Width) (off : Nat) (v : Word) (s : State) : Host.Outcome State Fault Refusal :=
  if accessAllowed w off then performWrite w off v { s with busOut := .done } else .next (busFault s)

/-- A host access: one atomic step (R76). -/
def hostAccess (a : Access) (s : State) : Host.Outcome State Fault Refusal :=
  match a with
  | .read w off => .next (hostRead w off.toNat s)
  | .write w off v => hostWrite w off.toNat v s

/-- The block offset of a host address, none outside the window of 4096 bytes at BLOCK_BASE (R70, R79). A host access
reaches the block's `inputs` under this offset (log 6). -/
def offsetOfAddress (a : Nat) : Option (BitVec 12) :=
  if Config.blockBase ≤ a ∧ a < Config.blockBase + 0x1000 then some (BitVec.ofNat 12 (a - Config.blockBase)) else none

/-! ### The step's input (R252) -/

/-- The command word of a table row as the host writes it: a 32-bit write to CMD. -/
def commandWrite (w : Word) : Input := .host (.write .w32 0 w)

/-- Take the next input; with none waiting, time passes (R252; DESIGN CHOICE, unsafe, log 1). -/
def takeInput (s : State) : Host.Outcome State Fault Refusal :=
  match s.inputs with
  | [] => .next (clockStep s)
  | .clock :: rest => .next (clockStep { s with inputs := rest })
  | .host a :: rest => hostAccess a { s with inputs := rest }
  | .radio e :: rest => radioEvent e { s with inputs := rest }

/-- A step begins with no output of its own yet (log 9). -/
def beginStep (s : State) : State := { s with busOut := .idle, radioOut := [] }

/-- One step of the block: a due urgent step before any other, else the next input (R252). -/
def runStep (s : State) : Host.Outcome State Fault Refusal :=
  match dueUrgent s with
  | some u => runUrgent u s
  | none => takeInput s

/-- Put a command word at the head of the inputs, so that the next step issues it (log 2). -/
def queueCommand (nbits w : Nat) (s : State) : State :=
  { s with inputs := commandWrite (BitVec.ofNat 32 (w % 2 ^ nbits)) :: s.inputs }

end Sys2Proof.Machine
end

