-- ==== Sys2Proof/Machine/Step.lean ====
section
/-! DEFINITION. step: one atomic step of the block (R76, R80, R252). -/

namespace Sys2Proof.Machine

/-- One step: the outputs of the last one are gone, then the due urgent step or the next input is taken. -/
def step (s : State) : Host.Outcome State Fault Refusal := runStep (beginStep s)

/-- The state whose next step issues the command word whose low `nbits` bits are those of `w`: the block fetches
nothing (R75), a command arrives as the host's write of CMD (R24, R101; log 2). -/
def State.withFetchWord (s : State) (nbits w : Nat) : State := queueCommand nbits w s

end Sys2Proof.Machine
end

