-- ==== Sys2Proof/Safety.lean ====
section
/-! DEFINITION. What a safe run of the block is, in the terms the claims use: reserved bits, result codes, and the
scheduler's invariants (R22, R273, R300, R330). -/

namespace Sys2Proof.Machine

/-- The implemented bits of a register; the others are reserved and read 0 (R22, R24-R53). -/
def implementedBits : Reg → Word
  | .status => 0x7FF
  | .irqEn | .irqStat | .schedCtrl => 0xF
  | .src | .dst => 0x1FF
  | .lastJn => 0x80FFFFFF
  | .dnValid => 0x7
  | .csmaCfg | .rx1Dr | .rx2Dr => 0xFFFF
  | .txBuf | .rxBuf => 0x00FF01FF
  | .txDr => 0xFF
  | .schedState => 0x3F
  | .sendResult => 0x0001FF0F
  | .cmd | .devAddr | .fcnt | .aux0 | .aux1 | .aux2 | .aux3 | .res0 | .res1 | .res2 | .res3 | .valLo | .valHi
  | .joinEuiLo | .joinEuiHi | .devEuiLo | .devEuiHi | .nfCntDn | .afCntDn | .mcfCnt | .mcfCntMax | .dcMsph
  | .lastEnd | .lastToa | .fcntUp | .rx1Delay | .rx2Delay | .txFreq | .rx1Freq | .rx2Freq | .now | .retxCfg
  | .guardMs => 0xFFFFFFFF

/-- Reserved bits read 0 in every register (R22, R330). -/
def ReservedReadZero (s : State) : Prop := ∀ r : Reg, readReg s r &&& ~~~ implementedBits r = 0

/-- The outcomes an attempt can leave in SEND_RESULT, and its value before there is one (R51, R254, R256). -/
def legalSendResults : List Word :=
  [0, sendResultWord 0 .ok, sendResultWord 1 .ok, sendResultWord 2 .ok, sendResultWord 3 .ok,
    sendResultWord 0 .channelBusy, sendResultWord 0 .tx, sendResultWord 0 .rxHw]

/-- STATUS.ERR holds only codes 0-12, SEND_RESULT only outcomes of R254 (R300). -/
def CodesLegal (s : State) : Prop :=
  codeNumber s.regs.err ≤ 12 ∧ s.regs.sendResult ∈ legalSendResults

/-- The FSM states after TX_DONE, in which `t_end` is present (R262, R263). -/
def afterTx (f : Fsm) : Bool := f = .awaitingRx1 || f = .rx1Open || f = .awaitingRx2 || f = .rx2Open

/-- The guard phase, the FSM state and the pending request agree (R250, R257, R259). -/
def GuardConsistent (s : State) : Prop :=
  match s.sched.guardPhase with
  | .randDelay => s.sched.fsm = .transmitGuard ∧ s.radioPending = .random ∧ s.sched.randAcc.length ≤ 1
  | .delay _ _ => s.sched.fsm = .transmitGuard ∧ s.radioPending = .none ∧ s.sched.randAcc = []
  | .randBackoff => s.sched.fsm = .transmitGuard ∧ s.radioPending = .random ∧ s.sched.randAcc = []
  | .probe k => s.sched.fsm = .transmitGuard ∧ s.radioPending = .cad ∧ 1 ≤ k ∧ s.sched.randAcc = []
  | .launch => s.sched.fsm ≠ .transmitGuard ∧ s.sched.randAcc = []

/-- What SEND's checks guarantee of a snapshot (R256). -/
def SnapshotLegal (sn : Snapshot) : Prop :=
  rxFits sn.rxOff = true ∧ 1 ≤ sn.txFrame.length ∧ sn.txFrame.length ≤ Config.maxFrame ∧ sn.cls < 3 ∧
    (sn.rdelay = true → sn.rmin ≤ sn.rmax)

/-- The scheduler's invariant: R273's five clauses, and what its derivation needs of the hidden state. -/
structure SchedInv (s : State) : Prop where
  /-- R273.2. -/
  rx1 : s.radioPending = .rx .rx1 ↔ s.sched.fsm = .rx1Open
  /-- R273.2. -/
  rx2 : s.radioPending = .rx .rx2 ↔ s.sched.fsm = .rx2Open
  /-- R273.3. -/
  tx : s.radioPending = .tx ↔ s.sched.fsm = .transmitting
  /-- R273.4. -/
  guardRequest : s.radioPending = .cad ∨ s.radioPending = .random → s.sched.fsm = .transmitGuard
  /-- R273.5. -/
  rxC : s.radioPending = .rx .rxC →
    (s.sched.fsm = .idle ∨ s.sched.fsm = .awaitingRx1 ∨ s.sched.fsm = .awaitingRx2) ∧ applicableClass s = 2
  /-- Standby leaves nothing pending (R251.1). -/
  noStandby : s.radioPending ≠ .standby
  /-- `snap` is present exactly during an attempt (R256, R270). -/
  snapPresent : s.sched.snap.isSome = true ↔ s.sched.fsm ≠ .idle
  guard : GuardConsistent s
  snapLegal : ∀ sn, s.sched.snap = some sn → SnapshotLegal sn
  /-- An idle RxC has room for its frame (R281). -/
  rxcFits : s.sched.fsm = .idle → s.radioPending = .rx .rxC → rxFits s.sched.rxcOff = true
  tEnd : afterTx s.sched.fsm = true → s.sched.tEnd.isSome = true
  tOpen : s.sched.fsm = .rx1Open ∨ s.sched.fsm = .rx2Open → s.sched.tOpen.isSome = true
  /-- While a received frame waits, no attempt runs and no receive is open, so nothing overwrites it (R266, R282). -/
  held : s.regs.rxPend = true → s.sched.fsm = .idle ∧ s.radioPending = .none

/-! ### The vocabulary of the claims -/

/-- The state a successful command ends in, for its effects `t`: STATUS.ERR = 0 and IRQ_STAT.CMDDONE (R101). -/
def okState (t : State) : State :=
  { t with regs := { t.regs with err := .ok, irqStat := t.regs.irqStat ||| 1 } }

/-- The state a failed command ends in: its code, IRQ_STAT.CMDDONE and CMDERR, nothing else (R101, R301). -/
def errState (c : Code) (s : State) : State :=
  { s with regs := { s.regs with err := c, irqStat := s.regs.irqStat ||| 3 } }

/-- The RAM `n` is the RAM `m` with the string `bs` at offset `a` and every other byte as it was (R10). -/
structure Stored (m n : Memory) (a : Nat) (bs : Bytes) : Prop where
  inside : ∀ i, i < bs.length → n.read (a + i) = bs[i]?
  outside : ∀ x, x < a ∨ a + bs.length ≤ x → n.read x = m.read x

/-- The state in which a step handles its input: the input is taken, the last step's outputs are gone. -/
def taken (s : State) (rest : List Input) : State :=
  { s with inputs := rest, busOut := .idle, radioOut := [] }

/-- What an ECB command leaves at DST: every block is the cipher of the block at SRC, the rest of RAM as before. -/
def EcbStored (f : Block → Block → Block) (ks : Fin 8) (len : Nat) (s : State) (m : Memory) : Prop :=
  (∀ j, j < len / 16 →
    blockAt (memRead { s with ram := m } (dstOff s) len) (16 * j) =
      f (key s ks) (blockAt (memRead s (srcOff s) len) (16 * j))) ∧
  ∀ x, x < dstOff s ∨ dstOff s + len ≤ x → m.read x = s.ram.read x

/-- The requests that closing an open RxC emits (R256, R263). -/
def rxcClosing (s : State) : List Request := if s.radioPending = .rx .rxC then [.standby] else []

/-- A range that is not in frame RAM (R103). -/
def pastRam (a n : Nat) : Bool := 512 < a + n

/-- The code of the first check that fails. -/
def firstFailure : List (Bool × Code) → Option Code
  | [] => none
  | (failed, c) :: rest => if failed then some c else firstFailure rest

/-- The checks of PARSE_DOWNLINK in R305's order. -/
def downlinkChecks (rev : Rev) (n : Nat) (s : State) : List (Bool × Code) :=
  let d := downlinkAt n s
  [ (dnMulticast s && dnWindow s ≠ 3, .config)
  , (pastRam (srcOff s) n || pastRam (dstOff s) n, .bounds)
  , (n < 12, .malformed)
  , (n < 12 + d.fol, .malformed)
  , (d.hasPort && d.port = 0 && 0 < d.fol, .malformed)
  , (dnWindow s = 3 && (0 < d.fol || (d.hasPort && d.port = 0)), .malformed)
  , (d.addr ≠ (dnAddr s).toNat, .addr)
  , (d.mic ≠ dnMic rev d s, .mic)
  , (contextValid (dnContext rev d s) s && (dnCounter rev d s).toNat ≤ (contextCounter (dnContext rev d s) s).toNat,
      .replay)
  , (dnMulticast s && s.regs.mcfCntMax.toNat < (dnCounter rev d s).toNat, .replay) ]

/-- The checks of PARSE_JOINACC in R305's order. -/
def joinChecks (rev : Rev) (n : Nat) (s : State) : List (Bool × Code) :=
  let p := openJoin (joinKey rev s) (memRead s (srcOff s) n) n
  [ (sbusy s, .busy)
  , (pastRam (srcOff s) n || pastRam (dstOff s) n, .bounds)
  , (n ≠ 17 && n ≠ 33, .malformed)
  , (rev = .r11 && !(byteAt p 11).getLsbD 7, .version)
  , (slice p (n - 4) n ≠ joinAccMic rev s p n, .mic)
  , (!joinNonceFresh rev s (leVal (slice p 1 4)), .replay) ]

/-- The checks of SEND in R305's order. -/
def sendChecks (retx rdelay : Bool) (s : State) : List (Bool × Code) :=
  [ (sbusy s || s.regs.rxPend, .busy)
  , (ctrlClass s = 3, .config)
  , (txLen s = 0, .config)
  , (rdelay && retxMax s < retxMin s, .config)
  , (dcEn s && s.regs.dcMsph = 0, .config)
  , (pastRam (txOff s) (txLen s) || pastRam (rxOff s) 255, .bounds)
  , (dcEn s && !retx && dutyElapsed s < dutyInterval s, .duty) ]

/-- R305's table: the checks of every command, in order, each with the code it raises. -/
def checks (i : Instr) (s : State) : List (Bool × Code) :=
  match i with
  | .nop => []
  | .wipe => [(sbusy s, .busy)]
  | .softReset => [(sbusy s, .busy)]
  | .aesEnc _ len => [(len % 16 ≠ 0, .config), (pastRam (srcOff s) len || pastRam (dstOff s) len, .bounds)]
  | .aesDec _ len => [(len % 16 ≠ 0, .config), (pastRam (srcOff s) len || pastRam (dstOff s) len, .bounds)]
  | .cmac _ len => [(pastRam (srcOff s) len, .bounds)]
  | .ctrCrypt _ _ single len =>
    [(single && 16 < len, .config), (pastRam (srcOff s) len || pastRam (dstOff s) len, .bounds)]
  | .mic ks dir rev append verify len =>
    [ (append && verify, .config)
    , (pastRam (srcOff s) (len + if append || verify then 4 else 0), .bounds)
    , (verify && memRead s (srcOff s + len) 4 ≠ micValue ks dir rev s (memRead s (srcOff s) len), .mic) ]
  | .kdf _ len => [(15 < len, .config), (pastRam (srcOff s) len, .bounds)]
  | .deriveSession _ => []
  | .deriveJs rev => [(rev = .r10, .config)]
  | .storeLe len => [(len < 1 || 8 < len, .config), (pastRam (dstOff s) len, .bounds)]
  | .storeBe len => [(len < 1 || 8 < len, .config), (pastRam (dstOff s) len, .bounds)]
  | .loadLe len => [(len < 1 || 8 < len, .config), (pastRam (srcOff s) len, .bounds)]
  | .loadBe len => [(len < 1 || 8 < len, .config), (pastRam (srcOff s) len, .bounds)]
  | .fctrlPack => [(15 < bits s.regs.aux0 15 8, .config)]
  | .fctrlUnpack => []
  | .buildUplink _ n =>
    let o := uplinkOperands s
    [ (!o.p && 0 < n, .config)
    , (o.p && o.port = 0 && 0 < o.fol, .config)
    , (pastRam (srcOff s) (o.fol + n) || pastRam (dstOff s) (uplinkTotal o n), .bounds)
    , (o.maxMac < uplinkMacLen o n || 255 < uplinkTotal o n, .capacity) ]
  | .parseDownlink rev n => downlinkChecks rev n s
  | .buildJoinreq _ => [(pastRam (dstOff s) 23, .bounds)]
  | .parseJoinacc rev n => joinChecks rev n s
  | .fcntInfer => []
  | .checksum verify append =>
    let d := bits s.regs.aux3 9 0
    [ (verify && append, .config)
    , (pastRam (srcOff s) (d + if verify || append then 2 else 0), .bounds)
    , (verify && leVal (memRead s (srcOff s + d) 2) ≠ checksum16 (memRead s (srcOff s) d), .checksum) ]
  | .dcCheck _ => [(dcEn s && s.regs.dcMsph = 0, .config)]
  | .send retx rdelay => sendChecks retx rdelay s

/-- The bits of the word that a command's decoding reads: OP and RSV, and the fields of R98's "fields read" column. -/
def fieldsRead : Instr → Word
  | .nop | .wipe | .softReset | .fctrlPack | .fctrlUnpack | .fcntInfer => 0xFF0000FF
  | .aesEnc _ _ | .aesDec _ _ | .cmac _ _ | .kdf _ _ => 0xFFFF07FF
  | .ctrCrypt _ _ _ _ => 0xFFFF2FFF
  | .mic _ _ _ _ _ _ => 0xFFFF7FFF
  | .deriveSession _ | .deriveJs _ | .buildJoinreq _ => 0xFF0010FF
  | .storeLe _ | .storeBe _ | .loadLe _ | .loadBe _ => 0xFFFF00FF
  | .buildUplink _ _ | .parseDownlink _ _ | .parseJoinacc _ _ => 0xFFFF10FF
  | .checksum _ _ | .send _ _ => 0xFF0060FF
  | .dcCheck _ => 0xFF0020FF

/-- The commands that write key slots (R111, R112, R145-R147). -/
def writesKeys : Instr → Bool
  | .wipe | .softReset | .kdf _ _ | .deriveSession _ | .deriveJs _ => true
  | _ => false

/-- The commands that write frame RAM (R140-R212). -/
def writesRam : Instr → Bool
  | .aesEnc _ _ | .aesDec _ _ | .ctrCrypt _ _ _ _ | .storeLe _ | .storeBe _ | .buildUplink _ _ | .parseDownlink _ _
  | .buildJoinreq _ | .parseJoinacc _ _ => true
  | .mic _ _ _ append _ _ => append
  | .checksum _ append => append
  | _ => false

/-- The commands that write the session registers DEVADDR, LASTJN, the downlink counters and DNVALID (R29, R35, R36). -/
def writesSession : Instr → Bool
  | .wipe | .softReset | .parseDownlink _ _ | .parseJoinacc _ _ => true
  | _ => false

/-- The commands that touch the scheduler or the radio (R303, R112). -/
def drivesScheduler : Instr → Bool
  | .softReset | .send _ _ => true
  | _ => false

/-- The invariant of every reachable state. -/
structure Inv (s : State) : Prop where
  memory : Memory.wf s.ram = true
  reserved : ReservedReadZero s
  codes : CodesLegal s
  sched : SchedInv s

end Sys2Proof.Machine
end

