-- ==== Sys2Proof/Certificates/Slice0/Obligations.lean ====
section
/-! DEFINITION. The statements for the provers, in the spec's order: encoding, issuing, control, crypto, codec, gate,
scheduler, bus, whole-machine rules, invariants. -/

open Sys2Proof Sys2Proof.Machine

/-! ### Encoding and issuing -/

/-- O1. Decoding an encoded well-formed command gives it back, for every command and every operand value. -/
def Obligations.DecodeEncodeRoundTrip : Prop :=
  ∀ i : Instr, i.wellFormed = true → decode (encode i) = .ok i

/-- O2. A word is a command exactly when RSV is 0 and OP is none of the undefined values; any other raises ERR_ILLEGAL
with no other effect (R97, R99). -/
def Obligations.UndefinedWordsAreIllegal : Prop :=
  ∀ w : Word,
    let op := bits w 7 0
    if bits w 31 24 ≠ 0 ∨ (0x03 ≤ op ∧ op ≤ 0x0F) ∨ (0x18 ≤ op ∧ op ≤ 0x1F) ∨ (0x2C ≤ op ∧ op ≤ 0x2F) ∨
        (0x31 ≤ op ∧ op ≤ 0x37) ∨ 0x39 ≤ op then
      ∀ s : State, issueCommand w s = .next (errState .illegal { s with regs := { s.regs with cmd := w } })
    else
      ∃ i : Instr, decode w = .ok i ∧ i.wellFormed = true ∧
        ∀ s : State, issueCommand w s = exec i { s with regs := { s.regs with cmd := w } }

/-- O3. A command ignores the fields it does not read: its own encoding is the word with those fields at 0, and every
word that agrees on the fields it reads is the same command (R98, R100). -/
def Obligations.UnreadFieldsAreIgnored : Prop :=
  ∀ (w : Word) (i : Instr), decode w = .ok i →
    encode i = w &&& fieldsRead i ∧ ∀ v : Word, v &&& fieldsRead i = w &&& fieldsRead i → decode v = .ok i

/-- O4. Words the spec writes out decode to the commands it writes beside them (R105, R143, R192, R212). -/
def Obligations.SpecWordsDecode : Prop :=
  decode 0x00142414#32 = .ok (.mic 4 .up .r10 true false 20) ∧
  decode 0x00050213#32 = .ok (.ctrCrypt 2 .up false 5) ∧
  decode 0x000F0027#32 = .ok (.parseDownlink .r10 15) ∧
  decode 0x00001028#32 = .ok (.buildJoinreq .r11) ∧
  decode 0x0000402B#32 = .ok (.checksum false true) ∧
  decode 0x00002030#32 = .ok (.dcCheck true) ∧
  decode 0x00FF3F00#32 = .ok .nop

/-- O5. A step with no urgent step due takes the first waiting input, and is a clock step when none waits (R252; the
queue of inputs and the clock step on an empty one are the model's choice, log 1). -/
def Obligations.StepTakesTheNextInput : Prop :=
  ∀ (s : State) (rest : List Input), dueUrgent s = none →
    (s.inputs = [] → step s = .next (clockStep (taken s []))) ∧
    (s.inputs = .clock :: rest → step s = .next (clockStep (taken s rest))) ∧
    (∀ a, s.inputs = .host a :: rest → step s = hostAccess a (taken s rest)) ∧
    (∀ e, s.inputs = .radio e :: rest → step s = radioEvent e (taken s rest))

/-- O6. A host write of a command word to CMD stores the word and runs the command it decodes to, in that step (R101). -/
def Obligations.StepRunsTheIssuedCommand : Prop :=
  ∀ (s : State) (rest : List Input) (w : Word) (i : Instr),
    dueUrgent s = none → s.inputs = .host (.write .w32 0x000 w) :: rest → decode w = .ok i →
    step s = exec i { taken s rest with busOut := .done, regs := { s.regs with cmd := w } }

/-- O7. Every command ends: with its effects and STATUS.ERR = 0, or with a code of STATUS.ERR and no other effect
(R101, R300, R301). -/
def Obligations.CommandErrorsArePrecise : Prop :=
  ∀ (i : Instr) (s : State),
    (∃ t, exec i s = .next (okState t)) ∨
    (∃ c, 2 ≤ codeNumber c ∧ codeNumber c ≤ 12 ∧ exec i s = .next (errState c s))

/-- O8. One command reports exactly one code, the first check that fails in R305's order, and succeeds when none does; a
word that is no command reports ERR_ILLEGAL before any check. -/
def Obligations.FirstFailedCheckIsReported : Prop :=
  ∀ s : State,
    (∀ i : Instr,
      match firstFailure (checks i s) with
      | some c => exec i s = .next (errState c s)
      | none => ∃ t, exec i s = .next (okState t)) ∧
    ∀ (w : Word) (e : DecodeError), decode w = .error e →
      issueCommand w s = .next (errState .illegal { s with regs := { s.regs with cmd := w } })

/-! ### Control commands -/

/-- O9. NOP does nothing beyond the epilogue, in every scheduler state (R110). -/
def Obligations.NopCommand : Prop := ∀ s : State, exec .nop s = .next (okState s)

/-- O10. WIPE zeroes every key slot and the session registers, and nothing else; while an attempt runs it is ERR_BUSY
(R111). -/
def Obligations.WipeCommand : Prop :=
  ∀ s : State,
    if s.sched.fsm ≠ .idle then exec .wipe s = .next (errState .busy s)
    else ∃ k : Vector Block 8, (∀ n : Fin 8, k[n] = Vector.replicate 16 0) ∧
      exec .wipe s = .next (okState { s with
        keys := k
        regs := { s.regs with
          devAddr := 0, lastJn := 0, nfCntDn := 0, afCntDn := 0, mcfCnt := 0, dnValid := 0, mcfCntMax := 0,
          fcntUp := 0, lastEnd := 0, lastToa := 0 } })

/-- O11. SOFT_RESET gives the reset state but RAM, NOW and the fault mark, with IRQ_STAT = 1, after cancelling an open
RxC; while an attempt runs it is ERR_BUSY (R112, R330). That the model's own fields `inputs`, `busOut` and `radioOut`
stay is the model's choice (log 9). -/
def Obligations.SoftResetCommand : Prop :=
  ∀ s : State,
    if s.sched.fsm ≠ .idle then exec .softReset s = .next (errState .busy s)
    else exec .softReset s = .next { State.reset with
      regs := { Regs.reset with now := s.regs.now, irqStat := 1 }
      ram := s.ram
      busFault := s.busFault
      inputs := s.inputs
      busOut := s.busOut
      radioOut := s.radioOut ++ if s.radioPending = .rx .rxC then [.standby] else [] }

/-! ### Crypto -/

/-- O12. The S-box is the inverse in GF(2^8) followed by R122's rotations, and INV_SBOX undoes it (R121-R123). -/
def Obligations.SboxIsInverseThenAffine : Prop :=
  ∀ a : Byte, ∃ t : Byte, (if a = 0 then t = 0 else gmul a t = 1) ∧
    sbox a = t ^^^ t.rotateLeft 1 ^^^ t.rotateLeft 2 ^^^ t.rotateLeft 3 ^^^ t.rotateLeft 4 ^^^ 0x63 ∧
    invSbox (sbox a) = a

/-- O13. `AES_Dec(K, AES_Enc(K, P)) = P` for every K and P (R126). -/
def Obligations.AesDecInvertsAesEnc : Prop := ∀ k p : Block, Machine.aesDec k (Machine.aesEnc k p) = p

/-- O14. AES_ENC and AES_DEC: the two checks, then every 16-byte block on its own, overlap or not (R140, R141, R78). -/
def Obligations.EcbCommands : Prop :=
  ∀ (ks : Fin 8) (len : Nat) (s : State),
    if len % 16 ≠ 0 then
      exec (.aesEnc ks len) s = .next (errState .config s) ∧ exec (.aesDec ks len) s = .next (errState .config s)
    else if 512 < srcOff s + len ∨ 512 < dstOff s + len then
      exec (.aesEnc ks len) s = .next (errState .bounds s) ∧ exec (.aesDec ks len) s = .next (errState .bounds s)
    else
      (∃ m, exec (.aesEnc ks len) s = .next (okState { s with ram := m }) ∧ EcbStored Machine.aesEnc ks len s m) ∧
      (∃ m, exec (.aesDec ks len) s = .next (okState { s with ram := m }) ∧ EcbStored Machine.aesDec ks len s m)

/-- O15. CMAC puts the tag of the range at SRC into RES0-RES3, little-endian per word (R142). The tag is R131's: K1 and
K2 are R130's 128-bit doublings, the blocks before the last are chained, the last is xored with K1 when full and padded
with 0x80 and xored with K2 otherwise; the MICs are R132's of R128's and R129's blocks. -/
def Obligations.CmacTagAndCommand : Prop :=
  (∀ (ks : Fin 8) (len : Nat) (s : State),
    if 512 < srcOff s + len then exec (.cmac ks len) s = .next (errState .bounds s)
    else
      let t := (Machine.cmac (key s ks) (memRead s (srcOff s) len)).toList
      exec (.cmac ks len) s = .next (okState { s with regs := { s.regs with
        res0 := word (leVal (slice t 0 4))
        res1 := word (leVal (slice t 4 8))
        res2 := word (leVal (slice t 8 12))
        res3 := word (leVal (slice t 12 16)) } })) ∧
  (∀ (k : Block) (m : Bytes), ∃ (k1 k2 : Block) (x : Nat → Block),
    let num := fun b : Block => BitVec.ofNat 128 (beVal b.toList)
    let double := fun v : BitVec 128 => (v <<< 1) ^^^ (if v.msb = true then 0x87 else 0)
    let n := if m.length = 0 then 1 else (m.length + 15) / 16
    let r := m.drop (16 * (n - 1))
    num k1 = double (num (Machine.aesEnc k (Vector.replicate 16 0))) ∧ num k2 = double (num k1) ∧
      x 0 = Vector.replicate 16 0 ∧
      (∀ i, i + 1 < n → x (i + 1) = Machine.aesEnc k (Vector.ofFn fun j => (x i)[j] ^^^ m.getD (16 * i + j.val) 0)) ∧
      Machine.cmac k m = Machine.aesEnc k (Vector.ofFn fun j => (x (n - 1))[j] ^^^
        if r.length = 16 then r.getD j.val 0 ^^^ k1[j]
        else (if j.val < r.length then r.getD j.val 0 else if j.val = r.length then 0x80 else 0) ^^^ k2[j])) ∧
  ∀ (kf ks : Block) (dir : Dir) (devAddr fcnt : Word) (conf txDr txCh : Nat) (msg : Bytes),
    let b0 := fun (dirByte : Byte) (c : Nat) => [0x49] ++ leBytes 2 c ++ [0, 0, dirByte] ++ leBytes 4 devAddr.toNat ++
      leBytes 4 fcnt.toNat ++ [0, BitVec.ofNat 8 msg.length]
    let b1 := [0x49] ++ leBytes 2 conf ++ [BitVec.ofNat 8 txDr, BitVec.ofNat 8 txCh, 0] ++ leBytes 4 devAddr.toNat ++
      leBytes 4 fcnt.toNat ++ [0, BitVec.ofNat 8 msg.length]
    micNet kf dir devAddr fcnt conf msg =
      (Machine.cmac kf (b0 (if dir = .down then 1 else 0) conf ++ msg)).toList.take 4 ∧
    micUp11 kf ks devAddr fcnt conf txDr txCh msg =
      (Machine.cmac ks (b1 ++ msg)).toList.take 2 ++ (Machine.cmac kf (b0 0 0 ++ msg)).toList.take 2

/-- O16. CTR_CRYPT: the two checks, then the counter-mode transform of the range at SRC, written at DST (R143). -/
def Obligations.CtrCryptCommand : Prop :=
  ∀ (ks : Fin 8) (dir : Dir) (single : Bool) (len : Nat) (s : State),
    if single = true ∧ 16 < len then exec (.ctrCrypt ks dir single len) s = .next (errState .config s)
    else if 512 < srcOff s + len ∨ 512 < dstOff s + len then
      exec (.ctrCrypt ks dir single len) s = .next (errState .bounds s)
    else ∃ m, exec (.ctrCrypt ks dir single len) s = .next (okState { s with ram := m }) ∧
      Stored s.ram m (dstOff s)
        (ctr (key s ks) (BitVec.ofNat 8 (bits s.regs.aux0 7 0)) dir s.regs.devAddr s.regs.fcnt single
          (memRead s (srcOff s) len))

/-- O17. The counter-mode transform is its own inverse, and the counter byte of block `j` is `j`, or 0 in single mode
(R127). -/
def Obligations.CtrIsItsOwnInverse : Prop :=
  (∀ (k : Block) (ctrId : Byte) (dir : Dir) (devAddr fcnt : Word) (single : Bool) (data : Bytes),
    (ctr k ctrId dir devAddr fcnt single data).length = data.length ∧
    ctr k ctrId dir devAddr fcnt single (ctr k ctrId dir devAddr fcnt single data) = data) ∧
  (∀ (k : Block) (ctrId : Byte) (dir : Dir) (devAddr fcnt : Word) (single : Bool) (data : Bytes) (x : Nat),
    x < data.length →
    byteAt (ctr k ctrId dir devAddr fcnt single data) x =
      byteAt data x ^^^ byteAt (Machine.aesEnc k (blockOf
        ([0x01, 0, 0, 0, ctrId, if dir = .down then 1 else 0] ++ leBytes 4 devAddr.toNat ++ leBytes 4 fcnt.toNat ++
          [0, if single then 0 else BitVec.ofNat 8 (x / 16 + 1)]))).toList (x % 16))

/-- O18. MIC: the checks, then the MIC of the message, compared, appended or only returned (R144). -/
def Obligations.MicCommand : Prop :=
  ∀ (ks : Fin 8) (dir : Dir) (rev : Rev) (append verify : Bool) (len : Nat) (s : State),
    let i := Instr.mic ks dir rev append verify len
    let msg := memRead s (srcOff s) len
    let m :=
      if dir = .up ∧ rev = .r11 then
        micUp11 (key s ks) (key s (slotField s.regs.aux1 0)) s.regs.devAddr s.regs.fcnt (bits s.regs.aux0 15 0)
          (bits s.regs.aux0 23 16) (bits s.regs.aux0 31 24) msg
      else
        micNet (key s ks) dir s.regs.devAddr s.regs.fcnt
          (if rev = .r11 ∧ dir = .down then bits s.regs.aux0 15 0 else 0) msg
    if append = true ∧ verify = true then exec i s = .next (errState .config s)
    else if 512 < srcOff s + len + (if append = true ∨ verify = true then 4 else 0) then
      exec i s = .next (errState .bounds s)
    else if verify = true ∧ memRead s (srcOff s + len) 4 ≠ m then exec i s = .next (errState .mic s)
    else ∃ r, exec i s = .next (okState { s with
        ram := r
        regs := { s.regs with res0 := word (leVal m) } }) ∧
      (if append = true then Stored s.ram r (srcOff s + len) m else r = s.ram)

/-- O19. KDF encrypts `[c] ++ string ++ zeros` under slot KS into the slot AUX1[2:0], and changes no other slot (R145). -/
def Obligations.KdfCommand : Prop :=
  ∀ (ks : Fin 8) (len : Nat) (s : State),
    if 15 < len then exec (.kdf ks len) s = .next (errState .config s)
    else if 512 < srcOff s + len then exec (.kdf ks len) s = .next (errState .bounds s)
    else ∃ k : Vector Block 8, exec (.kdf ks len) s = .next (okState { s with keys := k }) ∧
      ∀ n : Fin 8, k[n] = if n.val = bits s.regs.aux1 2 0 then
          Machine.aesEnc (key s ks) (blockOf ([BitVec.ofNat 8 (bits s.regs.aux0 7 0)] ++ memRead s (srcOff s) len ++
            zeros (15 - len)))
        else key s n

/-- O20. DERIVE_SESSION writes the session keys of its revision into slots 2-5, all from the root keys before it, and
changes no other slot (R146, R133). -/
def Obligations.DeriveSessionCommand : Prop :=
  ∀ (rev : Rev) (s : State),
    let jn := leBytes 3 (bits s.regs.aux0 23 0)
    let dn := leBytes 2 (bits s.regs.aux2 15 0)
    let key10 := fun c : Byte =>
      Machine.aesEnc (key s 0) (blockOf ([c] ++ jn ++ leBytes 3 (bits s.regs.aux1 23 0) ++ dn ++ zeros 7))
    let key11 := fun (root : Fin 8) (c : Byte) =>
      Machine.aesEnc (key s root) (blockOf ([c] ++ jn ++ leBytes 8 (joinEui s) ++ dn ++ zeros 2))
    ∃ k : Vector Block 8, exec (.deriveSession rev) s = .next (okState { s with keys := k }) ∧
      k[0] = key s 0 ∧ k[1] = key s 1 ∧ k[6] = key s 6 ∧ k[7] = key s 7 ∧
      match rev with
      | .r10 => k[2] = key10 2 ∧ k[3] = key10 1 ∧ k[4] = key10 1 ∧ k[5] = key10 1
      | .r11 => k[4] = key11 1 1 ∧ k[2] = key11 0 2 ∧ k[5] = key11 1 3 ∧ k[3] = key11 1 4

/-- O21. DERIVE_JS derives JSIntKey and JSEncKey from NwkKey and DevEUI in 1.1, and is ERR_CONFIG in 1.0 (R147, R133). -/
def Obligations.DeriveJsCommand : Prop :=
  ∀ s : State,
    exec (.deriveJs .r10) s = .next (errState .config s) ∧
    ∃ k : Vector Block 8, exec (.deriveJs .r11) s = .next (okState { s with keys := k }) ∧
      (∀ n : Fin 8, n.val < 6 → k[n] = key s n) ∧
      k[6] = Machine.aesEnc (key s 1) (blockOf ([0x06] ++ leBytes 8 (devEui s) ++ zeros 7)) ∧
      k[7] = Machine.aesEnc (key s 1) (blockOf ([0x05] ++ leBytes 8 (devEui s) ++ zeros 7))

/-! ### Codec -/

/-- O22. STORE_LE and STORE_BE: the checks, then byte `i` of the LEN bytes at DST is byte `i` of VAL, counted from the
least significant end, or from the most significant of the LEN kept (R180, R181). -/
def Obligations.StoreCommands : Prop :=
  ∀ (len : Nat) (s : State),
    if len < 1 ∨ 8 < len then
      exec (.storeLe len) s = .next (errState .config s) ∧ exec (.storeBe len) s = .next (errState .config s)
    else if 512 < dstOff s + len then
      exec (.storeLe len) s = .next (errState .bounds s) ∧ exec (.storeBe len) s = .next (errState .bounds s)
    else
      (∃ m, exec (.storeLe len) s = .next (okState { s with ram := m }) ∧
        Stored s.ram m (dstOff s) (List.ofFn fun i : Fin len => BitVec.ofNat 8 (valNum s / 256 ^ i.val))) ∧
      (∃ m, exec (.storeBe len) s = .next (okState { s with ram := m }) ∧
        Stored s.ram m (dstOff s) (List.ofFn fun i : Fin len => BitVec.ofNat 8 (valNum s / 256 ^ (len - 1 - i.val))))

/-- O23. LOAD_LE and LOAD_BE: the checks, then VAL is the number the LEN bytes at SRC spell, zero-extended (R182, R183). -/
def Obligations.LoadCommands : Prop :=
  ∀ (len : Nat) (s : State),
    if len < 1 ∨ 8 < len then
      exec (.loadLe len) s = .next (errState .config s) ∧ exec (.loadBe len) s = .next (errState .config s)
    else if 512 < srcOff s + len then
      exec (.loadLe len) s = .next (errState .bounds s) ∧ exec (.loadBe len) s = .next (errState .bounds s)
    else
      (∃ lo hi, exec (.loadLe len) s = .next (okState { s with regs := { s.regs with valLo := lo, valHi := hi } }) ∧
        hi.toNat * 2 ^ 32 + lo.toNat = ((List.range len).map fun i => (ramByte s (srcOff s + i)).toNat * 256 ^ i).sum) ∧
      (∃ lo hi, exec (.loadBe len) s = .next (okState { s with regs := { s.regs with valLo := lo, valHi := hi } }) ∧
        hi.toNat * 2 ^ 32 + lo.toNat =
          ((List.range len).map fun i => (ramByte s (srcOff s + i)).toNat * 256 ^ (len - 1 - i)).sum)

/-- O24. LOAD after STORE with the same LEN and offset returns `VAL mod 2^(8*LEN)`, in either byte order (R183). -/
def Obligations.LoadAfterStore : Prop :=
  ∀ (len : Nat) (s t : State), 1 ≤ len → len ≤ 8 → srcOff s = dstOff s →
    (exec (.storeLe len) s = .next (okState t) →
      ∃ u, exec (.loadLe len) (okState t) = .next u ∧ valNum u = valNum s % 2 ^ (8 * len)) ∧
    (exec (.storeBe len) s = .next (okState t) →
      ∃ u, exec (.loadBe len) (okState t) = .next u ∧ valNum u = valNum s % 2 ^ (8 * len))

/-- O25. FCTRL_PACK and FCTRL_UNPACK, bit by bit; packing what unpacking gave returns the byte (R184, R185). -/
def Obligations.FctrlCommands : Prop :=
  ∀ s : State,
    let a := s.regs.aux0
    (if 15 < bits a 15 8 then exec .fctrlPack s = .next (errState .config s)
     else ∃ v : Word, exec .fctrlPack s = .next (okState { s with regs := { s.regs with res0 := v } }) ∧
      v.toNat < 256 ∧ bit v 7 = bit a 0 ∧ bit v 6 = bit a 1 ∧ bit v 5 = bit a 2 ∧ bit v 4 = bit a 3 ∧
      bits v 3 0 = bits a 15 8) ∧
    (∃ v : Word, exec .fctrlUnpack s = .next (okState { s with regs := { s.regs with res0 := v } }) ∧
      bit v 0 = bit a 7 ∧ bit v 1 = bit a 6 ∧ bit v 2 = bit a 5 ∧ bit v 3 = bit a 4 ∧ bits v 7 4 = 0 ∧
      bits v 11 8 = bits a 3 0 ∧ bits v 31 12 = 0 ∧
      ∃ u, exec .fctrlPack { s with regs := { s.regs with aux0 := v } } = .next (okState u) ∧
        u.regs.res0.toNat = bits a 7 0)

/-- O26. BUILD_UPLINK: the checks, then the frame of R171 with its FOpts, payload and MIC, at DST, and its length in
RES0 (R186, R134). -/
def Obligations.BuildUplinkCommand : Prop :=
  ∀ (rev : Rev) (n : Nat) (s : State),
    let i := Instr.buildUplink rev n
    let a0 := s.regs.aux0
    let a2 := s.regs.aux2
    let fol := bits a0 19 16
    let p := bit a0 20
    let port := bits a0 31 24
    let macLen := 7 + fol + p + n
    let total := 1 + macLen + 4
    let da := s.regs.devAddr
    let fc := s.regs.fcnt
    if p = 0 ∧ 0 < n then exec i s = .next (errState .config s)
    else if p = 1 ∧ port = 0 ∧ 0 < fol then exec i s = .next (errState .config s)
    else if 512 < srcOff s + fol + n ∨ 512 < dstOff s + total then exec i s = .next (errState .bounds s)
    else if bits s.regs.aux1 7 0 < macLen ∨ 255 < total then exec i s = .next (errState .capacity s)
    else
      let fo := memRead s (srcOff s) fol
      let pl := memRead s (srcOff s + fol) n
      let fo' := if rev = .r11 ∧ 0 < fol then ctr (key s 3) 0 .up da fc true fo else fo
      let msg := [BitVec.ofNat 8 (bits a0 7 0)] ++ leBytes 4 da.toNat ++ [BitVec.ofNat 8 (bits a0 15 12 * 16 + fol)] ++
        leBytes 2 fc.toNat ++ fo' ++
        (if p = 1 then
          [BitVec.ofNat 8 port] ++ ctr (if port = 0 then key s 3 else key s 2) 0 .up da fc false pl
         else [])
      let m := match rev with
        | .r10 => micNet (key s 4) .up da fc 0 msg
        | .r11 => micUp11 (key s 4) (key s 5) da fc (bits a2 15 0) (bits a2 23 16) (bits a2 31 24) msg
      (msg ++ m).length = total ∧
      ∃ r, exec i s = .next (okState { s with ram := r, regs := { s.regs with res0 := word total } }) ∧
        Stored s.ram r (dstOff s) (msg ++ m)

/-- O27. The frame BUILD_UPLINK writes passes MIC with verify, under the operands R195 names. -/
def Obligations.BuiltUplinkVerifies : Prop :=
  ∀ (rev : Rev) (n : Nat) (s t : State),
    firstFailure (checks (.buildUplink rev n) s) = none → exec (.buildUplink rev n) s = .next t →
    ∃ u, exec (.mic 4 .up rev false true (t.regs.res0.toNat - 4))
      { t with regs := { t.regs with src := t.regs.dst, aux0 := t.regs.aux2, aux1 := 5 } } = .next (okState u)

/-- O28. PARSE_DOWNLINK: the checks, then the context's counter and DNVALID bit are committed, the plaintext stored at
DST and RES0-RES3 written (R188-R193). -/
def Obligations.ParseDownlinkCommand : Prop :=
  ∀ (rev : Rev) (n : Nat) (s : State),
    let i := Instr.parseDownlink rev n
    let g := s.regs
    let win := bits g.aux0 1 0
    let mc := bit g.aux0 2
    let f := memRead s (srcOff s) n
    let fctrl := byteAt f 5
    let fol := fctrl.toNat % 16
    let hasPort := 12 + fol < n
    let port := if hasPort then (byteAt f (8 + fol)).toNat else 0
    let addr := if mc = 1 then g.aux2 else g.devAddr
    let ctx := if mc = 1 then 2 else if rev = .r10 then 0 else if hasPort ∧ 0 < port then 1 else 0
    let l := if ctx = 2 then g.mcfCnt else if ctx = 1 then g.afCntDn else g.nfCntDn
    let c := infer l (leVal (slice f 6 8))
    let micKey := if mc = 1 then key s (slotField g.aux1 0) else if rev = .r10 then key s 4 else key s 5
    let conf := if rev = .r11 ∧ fctrl.getLsbD 5 = true then bits g.aux0 31 16 else 0
    if mc = 1 ∧ win ≠ 3 then exec i s = .next (errState .config s)
    else if 512 < srcOff s + n ∨ 512 < dstOff s + n then exec i s = .next (errState .bounds s)
    else if n < 12 ∨ n < 12 + fol ∨ (hasPort ∧ port = 0 ∧ 0 < fol) ∨
        (win = 3 ∧ (0 < fol ∨ (hasPort ∧ port = 0))) then exec i s = .next (errState .malformed s)
    else if leVal (slice f 1 5) ≠ addr.toNat then exec i s = .next (errState .addr s)
    else if slice f (n - 4) n ≠ micNet micKey .down addr c conf (slice f 0 (n - 4)) then
      exec i s = .next (errState .mic s)
    else if (bit g.dnValid ctx = 1 ∧ c.toNat ≤ l.toNat) ∨ (mc = 1 ∧ g.mcfCntMax.toNat < c.toNat) then
      exec i s = .next (errState .replay s)
    else
      let fo := slice f 8 (8 + fol)
      let fo' := if rev = .r11 ∧ 0 < fol then
          ctr (key s 3) (BitVec.ofNat 8 (bits g.aux0 15 8)) .down addr c true fo else fo
      let kp := if mc = 1 then key s (slotField g.aux1 4) else if port = 0 then key s 3 else key s 2
      let pl := if hasPort then ctr kp 0 .down addr c false (slice f (9 + fol) (n - 4)) else []
      ∃ r, exec i s = .next (okState { s with
          ram := r
          regs := { g with
            nfCntDn := if ctx = 0 then c else g.nfCntDn
            afCntDn := if ctx = 1 then c else g.afCntDn
            mcfCnt := if ctx = 2 then c else g.mcfCnt
            dnValid := g.dnValid ||| word (2 ^ ctx)
            res0 := c
            res1 := word ((byteAt f 0).toNat + fctrl.toNat * 2 ^ 8 + port * 2 ^ 16 +
              (if hasPort then 1 else 0) * 2 ^ 24 + ctx * 2 ^ 25)
            res2 := word (fol + pl.length * 2 ^ 8)
            res3 := addr } }) ∧
        Stored s.ram r (dstOff s) (fo' ++ pl)

/-- O29. A frame that PARSE_DOWNLINK accepted is refused with ERR_REPLAY when parsed again, where its output does not
overlap it (R190, R191). The frame is read twice: that bytes nothing has written read alike both times is the model's
choice (log 3). -/
def Obligations.AcceptedDownlinkIsNotAcceptedTwice : Prop :=
  ∀ (rev : Rev) (n : Nat) (s t : State),
    srcOff s + n ≤ dstOff s ∨ dstOff s + n ≤ srcOff s →
    exec (.parseDownlink rev n) s = .next t → t.regs.err = .ok →
    exec (.parseDownlink rev n) t = .next (errState .replay t)

/-- O30. BUILD_JOINREQ: the check, then the 23-byte join request of R174 at DST and its MIC in RES0 (R196). -/
def Obligations.BuildJoinreqCommand : Prop :=
  ∀ (rev : Rev) (s : State),
    if 512 < dstOff s + 23 then exec (.buildJoinreq rev) s = .next (errState .bounds s)
    else
      let msg := [BitVec.ofNat 8 (bits s.regs.aux0 7 0)] ++ leBytes 8 (joinEui s) ++ leBytes 8 (devEui s) ++
        leBytes 2 (bits s.regs.aux2 15 0)
      let m := (Machine.cmac (if rev = .r10 then key s 0 else key s 1) msg).toList.take 4
      (msg ++ m).length = 23 ∧
      ∃ r, exec (.buildJoinreq rev) s =
          .next (okState { s with ram := r, regs := { s.regs with res0 := word (leVal m) } }) ∧
        Stored s.ram r (dstOff s) (msg ++ m)

/-- O31. PARSE_JOINACC: the checks, then the plaintext at DST, DEVADDR and LASTJN, the cleared unicast counters and
RES0-RES3 (R200-R205). That MCFCNT and DNVALID bit 2 stay, as R205 says, where R36 can be read as clearing them, is the
model's choice (log 15). -/
def Obligations.ParseJoinaccCommand : Prop :=
  ∀ (rev : Rev) (n : Nat) (s : State),
    let i := Instr.parseJoinacc rev n
    let g := s.regs
    let f := memRead s (srcOff s) n
    let k := if rev = .r10 then key s 0 else key s 1
    let p := [byteAt f 0] ++ (Machine.aesEnc k (blockAt f 1)).toList ++
      (if n = 33 then (Machine.aesEnc k (blockAt f 17)).toList else [])
    let jn := leVal (slice p 1 4)
    let da := leVal (slice p 7 11)
    let body := slice p 0 (n - 4)
    let m := if rev = .r10 then (Machine.cmac (key s 0) body).toList.take 4
      else (Machine.cmac (key s 6)
        ([0xFF] ++ leBytes 8 (joinEui s) ++ leBytes 2 (bits g.aux2 15 0) ++ body)).toList.take 4
    if s.sched.fsm ≠ .idle then exec i s = .next (errState .busy s)
    else if 512 < srcOff s + n ∨ 512 < dstOff s + n then exec i s = .next (errState .bounds s)
    else if n ≠ 17 ∧ n ≠ 33 then exec i s = .next (errState .malformed s)
    else if rev = .r11 ∧ (byteAt p 11).getLsbD 7 = false then exec i s = .next (errState .version s)
    else if slice p (n - 4) n ≠ m then exec i s = .next (errState .mic s)
    else if bit g.lastJn 31 = 1 ∧ (if rev = .r11 then jn ≤ bits g.lastJn 23 0 else jn = bits g.lastJn 23 0) then
      exec i s = .next (errState .replay s)
    else ∃ r d, exec i s = .next (okState { s with
          ram := r
          regs := { g with
            lastJn := word (2 ^ 31 + jn)
            devAddr := word da
            fcntUp := 0
            nfCntDn := 0
            afCntDn := 0
            dnValid := d
            res0 := word jn
            res1 := word (leVal (slice p 4 7))
            res2 := word da
            res3 := word ((byteAt p 11).toNat + (byteAt p 12).toNat * 2 ^ 8 + (if n = 33 then 1 else 0) * 2 ^ 16) } }) ∧
        (bit d 0 = 0 ∧ bit d 1 = 0 ∧ bit d 2 = bit g.dnValid 2 ∧ bits d 31 3 = 0) ∧
        Stored s.ram r (dstOff s) p

/-- O32. An accepted 1.1 join leaves a JoinNonce strictly above the last accepted one (R204, R205). -/
def Obligations.AcceptedJoinNonceIncreases : Prop :=
  ∀ (n : Nat) (s t : State), exec (.parseJoinacc .r11 n) s = .next t → t.regs.err = .ok →
    lastJnValid t = true ∧ (lastJnValid s = true → lastJnJn s < lastJnJn t)

/-- O33. FCNT_INFER returns the inferred counter and changes nothing else (R210, R177). -/
def Obligations.FcntInferCommand : Prop :=
  ∀ s : State, ∃ c : Word, exec .fcntInfer s = .next (okState { s with regs := { s.regs with res0 := c } }) ∧
    let f := bits s.regs.aux0 15 0
    c.toNat = (bits s.regs.fcnt 31 16 * 2 ^ 16 + f + if f < bits s.regs.fcnt 15 0 then 2 ^ 16 else 0) % 2 ^ 32

/-- O34. Inference keeps the wire value and never decreases the counter below the end of the counter space; at its end
it wraps below the counter (R177, R211). -/
def Obligations.InferNeverDecreases : Prop :=
  ∀ (l : Word) (f : Nat), f < 2 ^ 16 →
    (infer l f).toNat % 2 ^ 16 = f ∧
    (bits l 31 16 < 0xFFFF → l.toNat ≤ (infer l f).toNat ∧ ((infer l f).toNat = l.toNat ↔ f = bits l 15 0)) ∧
    (bits l 31 16 = 0xFFFF → f < bits l 15 0 → (infer l f).toNat = f ∧ f < l.toNat)

/-- O35. CHECKSUM: the checks, then the fold of R178 returned, compared or appended (R212, R178). -/
def Obligations.ChecksumCommand : Prop :=
  ∀ (verify append : Bool) (s : State),
    let i := Instr.checksum verify append
    let d := bits s.regs.aux3 9 0
    let data := memRead s (srcOff s) d
    let cs := (List.range ((d + 1) / 2)).foldl
      (fun x k => x ^^^ ((byteAt data (2 * k)).toNat + 256 * if 2 * k + 1 < d then (byteAt data (2 * k + 1)).toNat else 0))
      0
    if verify = true ∧ append = true then exec i s = .next (errState .config s)
    else if 512 < srcOff s + d + (if verify = true ∨ append = true then 2 else 0) then
      exec i s = .next (errState .bounds s)
    else if verify = true ∧ leVal (memRead s (srcOff s + d) 2) ≠ cs then exec i s = .next (errState .checksum s)
    else ∃ r, exec i s = .next (okState { s with ram := r, regs := { s.regs with res0 := word cs } }) ∧
      (if append = true then Stored s.ram r (srcOff s + d) (leBytes 2 cs) else r = s.ram)

/-- O36. Changing any single byte of the data, or of its 2-byte trailer, makes a CHECKSUM verify fail (R213). -/
def Obligations.ChecksumDetectsOneByte : Prop :=
  ∀ (s : State) (m : Memory) (x : Nat),
    firstFailure (checks (.checksum true false) s) = none →
    srcOff s ≤ x → x < srcOff s + bits s.regs.aux3 9 0 + 2 →
    ramByte { s with ram := m } x ≠ ramByte s x →
    (∀ y, y ≠ x → ramByte { s with ram := m } y = ramByte s y) →
    exec (.checksum true false) { s with ram := m } = .next (errState .checksum { s with ram := m })

/-! ### Gate -/

/-- O37. The duty-cycle interval is the least `q` with `q * D >= 3600000 * T` (R231). -/
def Obligations.IntervalIsExact : Prop :=
  ∀ d t : Nat, 0 < d →
    3600000 * t ≤ interval d t * d ∧ (∀ q, 3600000 * t ≤ q * d → interval d t ≤ q) ∧
    interval 3600000 t = t ∧ interval 36000 t = 100 * t

/-- O38. DC_CHECK reports the gate, in every case, and refuses only a budget of 0 (R235, R233, R234). -/
def Obligations.DcCheckCommand : Prop :=
  ∀ (retx : Bool) (s : State),
    let i := interval s.regs.dcMsph.toNat s.regs.lastToa.toNat
    let e := (s.regs.now - s.regs.lastEnd).toNat
    if bit s.regs.schedCtrl 2 = 0 then
      exec (.dcCheck retx) s = .next (okState { s with regs := { s.regs with res0 := 0, res1 := 0, res2 := 0 } })
    else if s.regs.dcMsph = 0 then exec (.dcCheck retx) s = .next (errState .config s)
    else exec (.dcCheck retx) s = .next (okState { s with regs := { s.regs with
      res1 := word i
      res0 := word (if e < i then i - e else 0)
      res2 := if e < i ∧ retx = false then 1 else 0 } })

/-! ### Scheduler -/

/-- O39. SEND: the checks in R256's order, the duty-cycle gate last (a retransmission skips it); then the snapshot is taken,
SEND_RESULT cleared, an idle RxC cancelled, and the attempt starts with the random delay, the back-off draw, the first
probe, or the transmission at once (R256, R232, R234, R255, R259, R260). -/
def Obligations.SendCommand : Prop :=
  ∀ (retx rdelay : Bool) (s : State),
    let i := Instr.send retx rdelay
    let g := s.regs
    let dcOn := bit g.schedCtrl 2 = 1
    let dr := BitVec.ofNat 8 (bits g.txDr 7 0)
    let off := bits g.txBuf 8 0
    let len := bits g.txBuf 23 16
    if s.sched.fsm ≠ .idle ∨ g.rxPend = true then exec i s = .next (errState .busy s)
    else if bits g.schedCtrl 1 0 = 3 ∨ len = 0 ∨ (rdelay = true ∧ bits g.retxCfg 31 16 < bits g.retxCfg 15 0) ∨
        (dcOn ∧ g.dcMsph = 0) then exec i s = .next (errState .config s)
    else if 512 < off + len ∨ 512 < bits g.rxBuf 8 0 + 255 then exec i s = .next (errState .bounds s)
    else if dcOn ∧ retx = false ∧ (g.now - g.lastEnd).toNat < interval g.dcMsph.toNat g.lastToa.toNat then
      exec i s = .next (errState .duty s)
    else
      let sn : Snapshot := {
        cls := bits g.schedCtrl 1 0, csmaEn := bit g.schedCtrl 3 = 1
        difs := bits g.csmaCfg 7 0, backoffMax := bits g.csmaCfg 15 8
        txFreq := g.txFreq, txDr := dr, txFrame := memRead s off len
        rx1Freq := g.rx1Freq, rx1Dr := BitVec.ofNat 8 (bits g.rx1Dr 7 0), rx1MaxPl := bits g.rx1Dr 15 8
        rx2Freq := g.rx2Freq, rx2Dr := BitVec.ofNat 8 (bits g.rx2Dr 7 0), rx2MaxPl := bits g.rx2Dr 15 8
        rx1Delay := g.rx1Delay, rx2Delay := g.rx2Delay, guardMs := g.guardMs, rxOff := bits g.rxBuf 8 0
        retx := retx, rdelay := rdelay, rmin := bits g.retxCfg 15 0, rmax := bits g.retxCfg 31 16 }
      let start := fun (f : Fsm) (p : GuardPhase) (q : Request) (acc : Bytes) =>
        exec i s = .next (okState { s with
          regs := { g with sendResult := 0 }
          sched := { s.sched with
            snap := some sn, fsm := f, guardPhase := p, randAcc := acc }
          radioPending := q.pending
          radioOut := s.radioOut ++ rxcClosing s ++ [q] })
      let tx := Request.tx g.txFreq dr (memRead s off len) (Config.toa dr len + g.guardMs.toNat)
      if rdelay = true then start .transmitGuard .randDelay .random []
      else if bit g.schedCtrl 3 = 0 then start .transmitting .launch tx s.sched.randAcc
      else if 0 < bits g.csmaCfg 15 8 then start .transmitGuard .randBackoff .random s.sched.randAcc
      else if 0 < bits g.csmaCfg 7 0 then
        start .transmitGuard (.probe (bits g.csmaCfg 7 0)) (.cad g.txFreq dr) s.sched.randAcc
      else start .transmitting .launch tx s.sched.randAcc

/-- O40. The guards of the urgent steps are R252's table; at most one holds at a time. -/
def Obligations.UrgentGuards : Prop :=
  ∀ s : State,
    (urgentGuard s .u1 = true ↔ s.sched.fsm = .transmitGuard ∧
      ∃ t0 d, s.sched.guardPhase = .delay t0 d ∧ d ≤ (s.regs.now - t0).toNat) ∧
    (urgentGuard s .u2 = true ↔ s.sched.fsm = .awaitingRx1 ∧
      ∃ sn t, s.sched.snap = some sn ∧ s.sched.tEnd = some t ∧ sn.rx1Delay.toNat ≤ (s.regs.now - t).toNat) ∧
    (urgentGuard s .u3 = true ↔ s.sched.fsm = .awaitingRx2 ∧
      ∃ sn t, s.sched.snap = some sn ∧ s.sched.tEnd = some t ∧ sn.rx2Delay.toNat ≤ (s.regs.now - t).toNat) ∧
    (urgentGuard s .u4 = true ↔ ∃ sn t, s.sched.snap = some sn ∧ s.sched.tOpen = some t ∧
      ((s.sched.fsm = .rx1Open ∧ Config.toa sn.rx1Dr sn.rx1MaxPl ≤ (s.regs.now - t).toNat) ∨
        (s.sched.fsm = .rx2Open ∧ Config.toa sn.rx2Dr sn.rx2MaxPl ≤ (s.regs.now - t).toNat))) ∧
    (urgentGuard s .u5 = true ↔ (s.sched.fsm = .awaitingRx1 ∨ s.sched.fsm = .awaitingRx2) ∧ s.radioPending = .none ∧
      (∃ sn, s.sched.snap = some sn ∧ sn.cls = 2) ∧ urgentGuard s .u2 = false ∧ urgentGuard s .u3 = false) ∧
    (urgentGuard s .u6 = true ↔ s.sched.fsm = .idle ∧ bits s.regs.schedCtrl 1 0 = 2 ∧ s.regs.rxPend = false ∧
      s.radioPending = .none ∧ bits s.regs.rxBuf 8 0 + 255 ≤ 512) ∧
    ∀ u v, urgentGuard s u = true → urgentGuard s v = true → u = v

/-- O41. A due urgent step is taken before any other: no input is consumed, and NOW, the keys, RAM and every register
but the outcome's stay (R252). -/
def Obligations.UrgentStepsGoFirst : Prop :=
  ∀ (s : State) (u : Urgent), SchedInv s → urgentGuard s u = true →
    ∃ t, step s = .next t ∧ t.inputs = s.inputs ∧ t.busOut = .idle ∧ t.keys = s.keys ∧ t.ram = s.ram ∧
      t.regs = { s.regs with sendResult := t.regs.sendResult, irqStat := t.regs.irqStat }

/-- O42. The random retransmit delay: the first byte asks for a second, the second starts a delay of
`rmin + leval(bytes) mod (rmax - rmin + 1)` ms from NOW, which lies in [rmin, rmax], and the elapsed delay starts the
CSMA arbiter (R257, R258). -/
def Obligations.RandomRetransmitDelay : Prop :=
  ∀ (s : State) (rest : List Input) (r r0 : Byte) (sn : Snapshot),
    s.sched.fsm = .transmitGuard → s.sched.snap = some sn → sn.rmin ≤ sn.rmax →
    let d := sn.rmin + (r0.toNat + 256 * r.toNat) % (sn.rmax - sn.rmin + 1)
    sn.rmin ≤ d ∧ d ≤ sn.rmax ∧
    (s.sched.guardPhase = .randDelay → s.radioPending = .random → s.inputs = .radio (.random r) :: rest →
      (s.sched.randAcc = [] → step s = .next { taken s rest with
        radioOut := [.random], sched := { s.sched with randAcc := [r] } }) ∧
      (s.sched.randAcc = [r0] → step s = .next { taken s rest with
        radioPending := .none, sched := { s.sched with randAcc := [], guardPhase := .delay s.regs.now d } })) ∧
    (∀ (t0 : Word) (e : Nat), s.sched.guardPhase = .delay t0 e → e ≤ (s.regs.now - t0).toNat →
      let started := fun (f : Fsm) (p : GuardPhase) (q : Request) =>
        step s = .next { taken s s.inputs with
          radioPending := q.pending, radioOut := [q], sched := { s.sched with fsm := f, guardPhase := p } }
      let tx := Request.tx sn.txFreq sn.txDr sn.txFrame
        (Config.toa sn.txDr sn.txFrame.length + sn.guardMs.toNat)
      if sn.csmaEn = false then started .transmitting .launch tx
      else if 0 < sn.backoffMax then started .transmitGuard .randBackoff .random
      else if 0 < sn.difs then started .transmitGuard (.probe sn.difs) (.cad sn.txFreq sn.txDr)
      else started .transmitting .launch tx)

/-- O43. The CSMA arbiter: the back-off draw fixes the number of probes, a clear probe leaves one fewer, the last clear
one launches the snapshot's frame, a busy one ends the attempt with ERR_CHANNEL_BUSY (R241, R242, R259, R260). -/
def Obligations.CsmaArbiter : Prop :=
  ∀ (s : State) (rest : List Input) (sn : Snapshot), s.sched.fsm = .transmitGuard → s.sched.snap = some sn →
    let probes := fun (k : Nat) =>
      if k = 0 then step s = .next { taken s rest with
          sched := { s.sched with fsm := .transmitting, guardPhase := .launch }
          radioPending := .tx
          radioOut := [.tx sn.txFreq sn.txDr sn.txFrame
            (Config.toa sn.txDr sn.txFrame.length + sn.guardMs.toNat)] }
      else step s = .next { taken s rest with
          sched := { s.sched with guardPhase := .probe k }
          radioPending := .cad
          radioOut := [.cad sn.txFreq sn.txDr] }
    (∀ r : Byte, s.sched.guardPhase = .randBackoff → s.radioPending = .random →
      s.inputs = .radio (.random r) :: rest → probes (sn.difs + r.toNat % (sn.backoffMax + 1))) ∧
    (∀ k : Nat, s.sched.guardPhase = .probe k → s.radioPending = .cad →
      (s.inputs = .radio .cadClear :: rest → probes (k - 1)) ∧
      (s.inputs = .radio .cadBusy :: rest → step s = .next { taken s rest with
          regs := { s.regs with sendResult := sendResultWord 0 .channelBusy, irqStat := s.regs.irqStat ||| 4 }
          sched := { s.sched with fsm := .idle, guardPhase := .launch, randAcc := [], snap := none }
          radioPending := .none }))

/-- O44. TX_DONE stamps the end of the transmission, counts it unless it is a retransmission and waits for Rx1; TX_FAIL
ends the attempt with ERR_TX and counts nothing (R262; LAST_TOA modulo 2^32 is the model's, log 5). -/
def Obligations.TransmissionEnds : Prop :=
  ∀ (s : State) (rest : List Input) (sn : Snapshot),
    s.sched.fsm = .transmitting → s.radioPending = .tx → s.sched.snap = some sn →
    (s.inputs = .radio .txDone :: rest → step s = .next { taken s rest with
      regs := { s.regs with
        lastEnd := s.regs.now
        lastToa := word (Config.toa sn.txDr sn.txFrame.length)
        fcntUp := if sn.retx = true then s.regs.fcntUp else s.regs.fcntUp + 1 }
      sched := { s.sched with fsm := .awaitingRx1, tEnd := some s.regs.now }
      radioPending := .none }) ∧
    (s.inputs = .radio .txFail :: rest → step s = .next { taken s rest with
      regs := { s.regs with sendResult := sendResultWord 0 .tx, irqStat := s.regs.irqStat ||| 4 }
      sched := { s.sched with fsm := .idle, guardPhase := .launch, randAcc := [], snap := none }
      radioPending := .none })

/-- O45. A receive window opens when its delay from the end of the transmission has elapsed, before any input, closing
RxC first, with the timeout `toa(dr, 0) + guard_ms` (R263, R264). -/
def Obligations.WindowsOpen : Prop :=
  ∀ (s : State) (sn : Snapshot) (t : Word), s.sched.snap = some sn → s.sched.tEnd = some t →
    (s.sched.fsm = .awaitingRx1 → sn.rx1Delay.toNat ≤ (s.regs.now - t).toNat →
      step s = .next { taken s s.inputs with
        sched := { s.sched with fsm := .rx1Open, tOpen := some s.regs.now }
        radioPending := .rx .rx1
        radioOut := rxcClosing s ++
          [.rx .rx1 sn.rx1Freq sn.rx1Dr (some (Config.toa sn.rx1Dr 0 + sn.guardMs.toNat))] }) ∧
    (s.sched.fsm = .awaitingRx2 → sn.rx2Delay.toNat ≤ (s.regs.now - t).toNat →
      step s = .next { taken s s.inputs with
        sched := { s.sched with fsm := .rx2Open, tOpen := some s.regs.now }
        radioPending := .rx .rx2
        radioOut := rxcClosing s ++
          [.rx .rx2 sn.rx2Freq sn.rx2Dr (some (Config.toa sn.rx2Dr 0 + sn.guardMs.toNat))] })

/-- O46. A window closes without a frame at its deadline, with Standby, or on RX_TIMEOUT: Rx1 leads to AwaitingRx2, Rx2
to outcome (0, 0); RX_FAIL is outcome (0, ERR_RX_HW) (R264, R265, R267). -/
def Obligations.WindowsClose : Prop :=
  ∀ (s : State) (rest : List Input) (sn : Snapshot) (t : Word),
    s.sched.snap = some sn → s.sched.tOpen = some t →
    (s.sched.fsm = .rx1Open ∧ s.radioPending = .rx .rx1) ∨ (s.sched.fsm = .rx2Open ∧ s.radioPending = .rx .rx2) →
    let due := (if s.sched.fsm = .rx1Open then Config.toa sn.rx1Dr sn.rx1MaxPl
      else Config.toa sn.rx2Dr sn.rx2MaxPl) ≤ (s.regs.now - t).toNat
    let ended := fun (c : Code) (u : State) => { u with
      regs := { s.regs with sendResult := sendResultWord 0 c, irqStat := s.regs.irqStat ||| 4 }
      sched := { s.sched with fsm := .idle, guardPhase := .launch, randAcc := [], snap := none }
      radioPending := .none }
    let closed := fun (u : State) =>
      if s.sched.fsm = .rx1Open then { u with sched := { s.sched with fsm := .awaitingRx2 }, radioPending := .none }
      else ended .ok u
    (due → step s = .next (closed { taken s s.inputs with radioOut := [.standby] })) ∧
    (¬ due → s.inputs = .radio .rxTimeout :: rest → step s = .next (closed (taken s rest))) ∧
    (¬ due → s.inputs = .radio .rxFail :: rest → step s = .next (ended .rxHw (taken s rest)))

/-- O47. A frame received during an attempt is stored raw at the snapshot's offset, with its length and RXPEND, and the
attempt ends with the window's number, all in one step (R266, R268, R270, R81). -/
def Obligations.AttemptReceives : Prop :=
  ∀ (s : State) (rest : List Input) (sn : Snapshot) (w : RxWindow) (b : Bytes),
    s.sched.snap = some sn → s.radioPending = .rx w → s.sched.fsm ≠ .idle →
    requestInPhase (.rx w) s.sched.fsm = true → dueUrgent s = none → s.inputs = .radio (.rxDone b) :: rest →
    1 ≤ b.length → b.length ≤ 255 → sn.rxOff + 255 ≤ 512 →
    ∃ m, Stored s.ram m sn.rxOff b ∧ step s = .next { taken s rest with
      ram := m
      regs := { s.regs with
        rxBuf := word (bits s.regs.rxBuf 8 0 + b.length * 2 ^ 16)
        rxPend := true
        sendResult := sendResultWord (match w with | .rx1 => 1 | .rx2 => 2 | .rxC => 3) .ok
        irqStat := s.regs.irqStat ||| 4 }
      sched := { s.sched with fsm := .idle, guardPhase := .launch, randAcc := [], snap := none }
      radioPending := .none }

/-- O48. RxC: while idle in Class C it opens with the live registers, in an attempt's gaps with the snapshot's; an idle
one stores a frame at the captured offset and closes, and a timeout or failure only frees the radio (R268, R281, R282). -/
def Obligations.ContinuousWindow : Prop :=
  ∀ (s : State) (rest : List Input),
    (s.sched.fsm = .idle → bits s.regs.schedCtrl 1 0 = 2 → s.regs.rxPend = false → s.radioPending = .none →
      bits s.regs.rxBuf 8 0 + 255 ≤ 512 →
      step s = .next { taken s s.inputs with
        sched := { s.sched with rxcOff := bits s.regs.rxBuf 8 0 }
        radioPending := .rx .rxC
        radioOut := [.rx .rxC s.regs.rx2Freq (BitVec.ofNat 8 (bits s.regs.rx2Dr 7 0)) none] }) ∧
    (∀ sn t, s.sched.snap = some sn → s.sched.tEnd = some t → sn.cls = 2 → s.radioPending = .none →
      (s.sched.fsm = .awaitingRx1 ∧ (s.regs.now - t).toNat < sn.rx1Delay.toNat) ∨
        (s.sched.fsm = .awaitingRx2 ∧ (s.regs.now - t).toNat < sn.rx2Delay.toNat) →
      step s = .next { taken s s.inputs with
        radioPending := .rx .rxC
        radioOut := [.rx .rxC sn.rx2Freq sn.rx2Dr none] }) ∧
    (∀ b, s.sched.fsm = .idle → s.radioPending = .rx .rxC → s.inputs = .radio (.rxDone b) :: rest →
      1 ≤ b.length → b.length ≤ 255 → s.sched.rxcOff + 255 ≤ 512 →
      ∃ m, Stored s.ram m s.sched.rxcOff b ∧ step s = .next { taken s rest with
        ram := m
        regs := { s.regs with
          rxBuf := word (bits s.regs.rxBuf 8 0 + b.length * 2 ^ 16)
          rxPend := true
          irqStat := s.regs.irqStat ||| 8 }
        radioPending := .none }) ∧
    (s.sched.fsm = .idle ∨
        ((s.sched.fsm = .awaitingRx1 ∨ s.sched.fsm = .awaitingRx2) ∧ s.sched.snap.isSome = true) →
      s.radioPending = .rx .rxC →
      dueUrgent s = none → s.inputs = .radio .rxTimeout :: rest ∨ s.inputs = .radio .rxFail :: rest →
      step s = .next { taken s rest with radioPending := .none })

/-- O49. An event that does not match the pending request changes nothing (R274). -/
def Obligations.UnmatchedEventIsIgnored : Prop :=
  ∀ (s : State) (rest : List Input) (e : Event), dueUrgent s = none → s.inputs = .radio e :: rest →
    (match e with
      | .random _ => s.radioPending ≠ .random
      | .cadClear | .cadBusy => s.radioPending ≠ .cad
      | .txDone | .txFail => s.radioPending ≠ .tx
      | .rxDone _ | .rxTimeout | .rxFail => ∀ w, s.radioPending ≠ .rx w) →
    step s = .next (taken s rest)

/-! ### Bus -/

/-- O50. An access the window does not allow is a bus fault, which leaves everything but the fault mark and answers an
error; every other access is none. The reserved offsets and the offsets the map does not list read 0 and ignore writes
(R22, R70, R72, R73, R74, R321; that a narrow access to an unlisted offset below 0x100 is a fault is the model's
reading, log 7). -/
def Obligations.BusFaultsAndReservedOffsets : Prop :=
  ∀ (w : Width) (off : BitVec 12) (v : Word) (s : State),
    let a := off.toNat
    let bad := a % widthBytes w ≠ 0 ∨ (a < 0x100 ∧ w ≠ .w32)
    let reserved := (0x070 ≤ a ∧ a < 0x080) ∨ (0x0D4 ≤ a ∧ a < 0x100) ∨ (0x180 ≤ a ∧ a < 0x200) ∨ 0x400 ≤ a
    (bad → hostAccess (.read w off) s = .next { s with busFault := true, busOut := .error } ∧
      hostAccess (.write w off v) s = .next { s with busFault := true, busOut := .error }) ∧
    (¬ bad → (∃ d, hostAccess (.read w off) s = .next { s with busOut := .data d }) ∧
      ∃ t, hostAccess (.write w off v) s = .next t ∧ t.busFault = s.busFault ∧ t.busOut = .done) ∧
    (¬ bad → reserved → hostAccess (.read w off) s = .next { s with busOut := .data 0 } ∧
      hostAccess (.write w off v) s = .next { s with busOut := .done })

/-- O51. Every stored register of R23's map at its offset, with its RW bits: a write changes those bits and no other bit
of any register, no key, no byte and no scheduler state, and a read returns the register. The RW* registers need an idle
scheduler; SCHED_STATE ignores writes (R22, R23, R26, R28-R37, R43-R53). CMD, IRQ_STAT and SCHED_CTRL are O52's, the
reads of STATUS and SCHED_STATE O55's. -/
def Obligations.RegisterWritesReadBack : Prop :=
  ∀ (v : Word) (s : State),
    let low : List (BitVec 12 × (Regs → Word) × Word) :=
      [(0x008, Regs.irqEn, 0xF), (0x010, Regs.src, 0x1FF), (0x014, Regs.dst, 0x1FF),
       (0x018, Regs.devAddr, 0xFFFFFFFF), (0x01C, Regs.fcnt, 0xFFFFFFFF), (0x020, Regs.aux0, 0xFFFFFFFF),
       (0x024, Regs.aux1, 0xFFFFFFFF), (0x028, Regs.aux2, 0xFFFFFFFF), (0x02C, Regs.aux3, 0xFFFFFFFF),
       (0x030, Regs.res0, 0), (0x034, Regs.res1, 0), (0x038, Regs.res2, 0), (0x03C, Regs.res3, 0),
       (0x040, Regs.valLo, 0xFFFFFFFF), (0x044, Regs.valHi, 0xFFFFFFFF), (0x048, Regs.joinEuiLo, 0xFFFFFFFF),
       (0x04C, Regs.joinEuiHi, 0xFFFFFFFF), (0x050, Regs.devEuiLo, 0xFFFFFFFF),
       (0x054, Regs.devEuiHi, 0xFFFFFFFF), (0x058, Regs.lastJn, 0x80FFFFFF), (0x05C, Regs.nfCntDn, 0xFFFFFFFF),
       (0x060, Regs.afCntDn, 0xFFFFFFFF), (0x064, Regs.mcfCnt, 0xFFFFFFFF), (0x068, Regs.dnValid, 0x7),
       (0x06C, Regs.mcfCntMax, 0xFFFFFFFF)]
    let high : List (BitVec 12 × (Regs → Word) × Word) :=
      [(0x084, Regs.dcMsph, 0xFFFFFFFF), (0x088, Regs.lastEnd, 0xFFFFFFFF), (0x08C, Regs.lastToa, 0xFFFFFFFF),
       (0x090, Regs.fcntUp, 0xFFFFFFFF), (0x094, Regs.csmaCfg, 0xFFFF), (0x098, Regs.rx1Delay, 0xFFFFFFFF),
       (0x09C, Regs.rx2Delay, 0xFFFFFFFF), (0x0A0, Regs.txBuf, 0x00FF01FF), (0x0A4, Regs.txFreq, 0xFFFFFFFF),
       (0x0A8, Regs.txDr, 0xFF), (0x0AC, Regs.rx1Freq, 0xFFFFFFFF), (0x0B0, Regs.rx1Dr, 0xFFFF),
       (0x0B4, Regs.rx2Freq, 0xFFFFFFFF), (0x0B8, Regs.rx2Dr, 0xFFFF), (0x0BC, Regs.rxBuf, 0x1FF),
       (0x0C4, Regs.sendResult, 0), (0x0C8, Regs.now, 0), (0x0CC, Regs.retxCfg, 0xFFFFFFFF),
       (0x0D0, Regs.guardMs, 0xFFFFFFFF)]
    (∀ p ∈ low ++ high,
      hostAccess (.read .w32 p.1) s = .next { s with busOut := .data (p.2.1 s.regs) } ∧
      ((p.1 = 0x088 ∨ p.1 = 0x08C ∨ p.1 = 0x090 → s.sched.fsm = .idle) →
      ∃ g : Regs, hostAccess (.write .w32 p.1 v) s = .next { s with regs := g, busOut := .done } ∧
        p.2.1 g = (p.2.1 s.regs &&& ~~~p.2.2) ||| (v &&& p.2.2) ∧
        (∀ q ∈ low ++ high, q.1 ≠ p.1 → q.2.1 g = q.2.1 s.regs) ∧
        g.cmd = s.regs.cmd ∧ g.irqStat = s.regs.irqStat ∧ g.schedCtrl = s.regs.schedCtrl ∧ g.err = s.regs.err ∧
        g.rxPend = s.regs.rxPend)) ∧
    hostAccess (.write .w32 0x0C0 v) s = .next { s with busOut := .done }

/-- O52. The registers whose writes do something else: CMD keeps the word written and gives it back, STATUS bit 9 and
IRQ_STAT clear where a 1 is written, the RW* registers ignore writes while busy, IRQ_STAT and SCHED_CTRL read back, and
leaving Class C closes an idle RxC (R24, R25, R27, R42, R44, R45, R281, R344; what a write of CMD
runs is O2's and O6's, and that SOFT_RESET clears CMD is O11's). -/
def Obligations.SpecialRegisters : Prop :=
  ∀ (v : Word) (s : State),
    hostAccess (.read .w32 0x000) s = .next { s with busOut := .data s.regs.cmd } ∧
    (∃ t, hostAccess (.write .w32 0x000 v) s = .next t ∧ (decode v ≠ .ok .softReset → t.regs.cmd = v)) ∧
    hostAccess (.read .w32 0x00C) s = .next { s with busOut := .data s.regs.irqStat } ∧
    hostAccess (.read .w32 0x080) s = .next { s with busOut := .data s.regs.schedCtrl } ∧
    hostAccess (.write .w32 0x004 v) s = .next { s with
      busOut := .done, regs := { s.regs with rxPend := s.regs.rxPend && bit v 9 = 0 } } ∧
    hostAccess (.write .w32 0x00C v) s = .next { s with
      busOut := .done, regs := { s.regs with irqStat := s.regs.irqStat &&& ~~~(v &&& 0xF) } } ∧
    (s.sched.fsm ≠ .idle → ∀ off : BitVec 12, off = 0x088 ∨ off = 0x08C ∨ off = 0x090 →
      hostAccess (.write .w32 off v) s = .next { s with busOut := .done }) ∧
    hostAccess (.write .w32 0x080 v) s =
      (let c := (s.regs.schedCtrl &&& ~~~0xF) ||| (v &&& 0xF)
       let t : State := { s with busOut := .done, regs := { s.regs with schedCtrl := c } }
       if s.sched.fsm = .idle ∧ s.radioPending = .rx .rxC ∧ bits v 1 0 ≠ 2 then
         .next { t with radioPending := .none, radioOut := s.radioOut ++ [.standby] }
       else .next t)

/-- O53. The key window: a read returns 0, a write puts its bytes into the slots, least significant first, and changes
no other key byte and nothing else (R38, R39, R70). That the data of an 8- or 16-bit write stands in the low bits of `v`
is the model's choice (log 10). -/
def Obligations.KeyWindow : Prop :=
  ∀ (w : Width) (off : BitVec 12) (v : Word) (s : State),
    off.toNat % widthBytes w = 0 → 0x100 ≤ off.toNat → off.toNat < 0x180 →
    hostAccess (.read w off) s = .next { s with busOut := .data 0 } ∧
    ∃ k : Vector Block 8, hostAccess (.write w off v) s = .next { s with keys := k, busOut := .done } ∧
      ∀ (n : Fin 8) (j : Fin 16),
        let a := 0x100 + 16 * n.val + j.val
        k[n][j] = if off.toNat ≤ a ∧ a < off.toNat + widthBytes w
          then BitVec.ofNat 8 (v.toNat / 256 ^ (a - off.toNat)) else (key s n)[j]

/-- O54. The RAM window: a read is the little-endian composition of its bytes, a write stores them, least significant
byte lowest, and changes no other byte and nothing else (R41, R70). That the data of an 8- or 16-bit access stands in the
low bits of the word, with zeros above in a read, is the model's choice (log 10). -/
def Obligations.RamWindow : Prop :=
  ∀ (w : Width) (off : BitVec 12) (v : Word) (s : State),
    off.toNat % widthBytes w = 0 → 0x200 ≤ off.toNat → off.toNat < 0x400 →
    (∃ d : Word, hostAccess (.read w off) s = .next { s with busOut := .data d } ∧
      d.toNat = ((List.range (widthBytes w)).map fun i => (ramByte s (off.toNat - 0x200 + i)).toNat * 256 ^ i).sum) ∧
    ∃ m, hostAccess (.write w off v) s = .next { s with ram := m, busOut := .done } ∧
      Stored s.ram m (off.toNat - 0x200)
        (List.ofFn fun i : Fin (widthBytes w) => BitVec.ofNat 8 (v.toNat / 256 ^ i.val))

/-! ### Whole-machine rules -/

/-- O55. What the host sees of the block: the interrupt line is the OR of the enabled status bits; STATUS is
`ERR | SBUSY<<8 | RXPEND<<9 | RXCOPEN<<10` with R300's codes, SCHED_STATE is `FSM | RXC<<4` with RXC derived, and the
outcome word in SEND_RESULT is `WINDOW | ERR<<8 | VALID<<16` (R25, R51, R280, R300, R310). `cls` is the applicable class:
an attempt with no snapshot has none, and RXC is then left open (log 12). -/
def Obligations.StatusAndInterruptLine : Prop :=
  let number := fun c : Code => match c with
    | .ok => 0 | .illegal => 1 | .busy => 2 | .config => 3 | .bounds => 4 | .capacity => 5 | .malformed => 6 | .addr => 7
    | .mic => 8 | .replay => 9 | .version => 10 | .checksum => 11 | .duty => 12 | .channelBusy => 13 | .tx => 14
    | .rxHw => 15
  (∀ s : State, irqLine s = true ↔ ∃ i, i < 4 ∧ bit s.regs.irqStat i = 1 ∧ bit s.regs.irqEn i = 1) ∧
  (∀ s : State, ∃ d : Word, hostAccess (.read .w32 0x004) s = .next { s with busOut := .data d } ∧
    bits d 7 0 = number s.regs.err ∧
    (bit d 8 = 1 ↔ s.sched.fsm ≠ .idle) ∧
    (bit d 9 = 1 ↔ s.regs.rxPend = true) ∧
    (bit d 10 = 1 ↔ s.radioPending = .rx .rxC) ∧
    bits d 31 11 = 0) ∧
  (∀ (s : State) (cls : Nat),
    (s.sched.fsm = .idle ∧ cls = bits s.regs.schedCtrl 1 0) ∨
      (s.sched.fsm ≠ .idle ∧ ∃ sn, s.sched.snap = some sn ∧ cls = sn.cls) →
    ∃ d : Word, hostAccess (.read .w32 0x0C0) s = .next { s with busOut := .data d } ∧
      bits d 3 0 = (match s.sched.fsm with
        | .idle => 0 | .transmitGuard => 1 | .transmitting => 2 | .awaitingRx1 => 3 | .rx1Open => 4
        | .awaitingRx2 => 5 | .rx2Open => 6) ∧
      bits d 5 4 = (if s.radioPending = .rx .rxC then 2 else if cls = 2 then 1 else 0) ∧
      bits d 31 6 = 0) ∧
  (∀ s : State, hostAccess (.read .w32 0x0C4) s = .next { s with busOut := .data s.regs.sendResult }) ∧
  ∀ (w : Nat) (c : Code), w < 16 →
    bits (sendResultWord w c) 3 0 = w ∧ bits (sendResultWord w c) 7 4 = 0 ∧
    bits (sendResultWord w c) 15 8 = number c ∧ bit (sendResultWord w c) 16 = 1 ∧
    bits (sendResultWord w c) 31 17 = 0

/-- O56. Who writes what: no command but the named ones changes key slots, RAM, the session registers, or the scheduler
and the radio, and none but SOFT_RESET an operand or configuration register, NOW or the fault mark (R30, R31, R57,
R303, R347). -/
def Obligations.CommandFrames : Prop :=
  ∀ (i : Instr) (s t : State), exec i s = .next t →
    (writesKeys i = false → t.keys = s.keys) ∧
    (writesRam i = false → t.ram = s.ram) ∧
    (writesSession i = false → ∀ r ∈ [Reg.devAddr, .lastJn, .nfCntDn, .afCntDn, .mcfCnt, .dnValid],
      readReg t r = readReg s r) ∧
    (drivesScheduler i = false → t.sched = s.sched ∧ t.radioPending = s.radioPending ∧ t.radioOut = s.radioOut) ∧
    (i ≠ .softReset → ∀ r ∈ [Reg.cmd, .irqEn, .src, .dst, .fcnt, .aux0, .aux1, .aux2, .aux3, .joinEuiLo, .joinEuiHi,
      .devEuiLo, .devEuiHi, .schedCtrl, .dcMsph, .csmaCfg, .rx1Delay, .rx2Delay, .txBuf, .txFreq, .txDr, .rx1Freq,
      .rx1Dr, .rx2Freq, .rx2Dr, .rxBuf, .retxCfg, .guardMs], readReg t r = readReg s r) ∧
    t.regs.now = s.regs.now ∧ t.busFault = s.busFault ∧ t.inputs = s.inputs ∧ t.busOut = s.busOut

/-- O57. The scheduler never reads keys: two states that differ only in their keys take the same urgent step, radio
event or clock step, and still differ only in them (R346). -/
def Obligations.SchedulerIgnoresKeys : Prop :=
  ∀ (s t : State) (k : Vector Block 8), (∀ a rest, s.inputs = .host a :: rest → dueUrgent s ≠ none) →
    step s = .next t → step { s with keys := k } = .next { t with keys := k } ∧ t.keys = s.keys

/-- O58. Whole-machine rules of the counters: a bus fault's mark stays, NOW advances only in a clock step, and FCNTUP
changes only by a TX_DONE of a first transmission, a host write while idle, an accepted join, WIPE or SOFT_RESET (R74,
R52, R45). -/
def Obligations.CounterRules : Prop :=
  ∀ s t : State, step s = .next t →
    (s.busFault = true → t.busFault = true) ∧
    (t.regs.now ≠ s.regs.now →
      t.regs.now = s.regs.now + 1 ∧ dueUrgent s = none ∧ (s.inputs = [] ∨ ∃ rest, s.inputs = .clock :: rest)) ∧
    (t.regs.fcntUp ≠ s.regs.fcntUp →
      (∃ rest sn, s.inputs = .radio .txDone :: rest ∧ s.sched.fsm = .transmitting ∧ s.sched.snap = some sn ∧
        sn.retx = false ∧ t.regs.fcntUp = s.regs.fcntUp + 1) ∨
      (s.sched.fsm = .idle ∧ ∃ rest off v, s.inputs = .host (.write .w32 off v) :: rest ∧
        ((off = 0x090 ∧ t.regs.fcntUp = v) ∨
          (off = 0x000 ∧ t.regs.fcntUp = 0 ∧ t.regs.err = .ok ∧
            (decode v = .ok .wipe ∨ decode v = .ok .softReset ∨ ∃ rev n, decode v = .ok (.parseJoinacc rev n))))))

/-- O59. The reset state: every register reads 0 but NOW, every key byte is 0, the scheduler is Idle with nothing
pending, the invariant holds, no urgent step is due and SEND raises ERR_CONFIG (R330, R332; NOW is the parameter NOW0,
log 4). -/
def Obligations.ResetState : Prop :=
  Inv State.reset ∧ (∀ r : Reg, r ≠ .now → readReg State.reset r = 0) ∧ State.reset.regs.now = Config.now0 ∧
    (∀ n : Fin 8, key State.reset n = Vector.replicate 16 0) ∧ State.reset.ram = [] ∧
    State.reset.radioPending = .none ∧ State.reset.busFault = false ∧ irqLine State.reset = false ∧
    (∀ u, urgentGuard State.reset u = false) ∧
    ∀ retx rdelay, exec (.send retx rdelay) State.reset = .next (errState .config State.reset)

/-- O60. The invariant: every step from a state that meets it gives a state that meets it, and stops nowhere. Memory
stays in canonical form, reserved bits read 0, only named result codes occur, R273's clauses hold, and no receive is
open while a frame waits (R22, R273, R282, R300). -/
def Obligations.EveryStepKeepsTheInvariant : Prop :=
  ∀ s : State, Inv s → ∃ t, step s = .next t ∧ Inv t
end

