-- ==== Sys2Proof/Laws/Memory.lean ====
section
/-! SUPPORT. Byte strings and frame RAM: lengths, read after write, and the canonical form. -/

namespace Sys2Proof.Machine

/-! ### Byte strings -/

@[simp] theorem leBytes_length (n v : Nat) : (leBytes n v).length = n := by
  induction n generalizing v with
  | zero => rfl
  | succ n ih => simp [leBytes, ih]

@[simp] theorem beBytes_length (n v : Nat) : (beBytes n v).length = n := by simp [beBytes]

@[simp] theorem zeros_length (n : Nat) : (zeros n).length = n := by simp [zeros]

@[simp] theorem xorBytes_length (s t : Bytes) : (xorBytes s t).length = min s.length t.length := by simp [xorBytes]

@[simp] theorem memRead_length (s : State) (a n : Nat) : (memRead s a n).length = n := by simp [memRead]

theorem memRead_getElem? (s : State) (a n i : Nat) :
    (memRead s a n)[i]? = if i < n then some (ramByte s (a + i)) else none := by
  by_cases h : i < n
  · simp [memRead, h]
  · simp [memRead, h]

theorem leVal_leBytes (n v : Nat) : leVal (leBytes n v) = v % 256 ^ n := by
  induction n generalizing v with
  | zero => simp [leBytes, leVal, Nat.mod_one]
  | succ n ih =>
    have h : 256 ^ (n + 1) = 256 * 256 ^ n := Nat.pow_succ'
    rw [h, Nat.mod_mul, leBytes, leVal, ih]
    rfl

theorem leVal_lt (s : Bytes) : leVal s < 256 ^ s.length := by
  induction s with
  | nil => simp [leVal]
  | cons b s ih =>
    have := b.isLt
    simp only [leVal, List.length_cons, Nat.pow_succ]
    omega

theorem beVal_beBytes (n v : Nat) : beVal (beBytes n v) = v % 256 ^ n := by
  simp [beVal, beBytes, leVal_leBytes]

theorem ceilDiv_mul_ge (a b : Nat) (hb : 0 < b) : a ≤ ceilDiv a b * b := by
  unfold ceilDiv
  have := Nat.div_add_mod (a + b - 1) b
  have := Nat.mod_lt (a + b - 1) hb
  rw [Nat.mul_comm]
  omega

theorem ceilDiv_least (a b q : Nat) (hb : 0 < b) (h : a ≤ q * b) : ceilDiv a b ≤ q := by
  unfold ceilDiv
  have : (a + b - 1) / b < q + 1 := by
    rw [Nat.div_lt_iff_lt_mul hb, Nat.add_mul]
    omega
  omega

/-! ### Read after write -/

theorem Memory.read_insert (m : Memory) (a x : Nat) (b : Byte) :
    (Memory.insert m a b).read x = if x = a then some b else m.read x := by
  induction m with
  | nil => rfl
  | cons h m ih =>
    obtain ⟨k, c⟩ := h
    simp only [Memory.insert]
    split_ifs <;> simp only [Memory.read, ih] <;> split_ifs <;> first | rfl | omega

theorem Memory.read_write (m : Memory) (a x : Nat) (b : Byte) :
    (m.write a b).read x = if a < Config.ramSize ∧ x = a then some b else m.read x := by
  unfold Memory.write
  split
  · simp [Memory.read_insert, *]
  · simp [*]

/-- Everything a string write does: inside the range the string's bytes, outside what was there. -/
theorem Memory.read_writeBytes (m : Memory) (a : Nat) (bs : Bytes) (x : Nat)
    (h : a + bs.length ≤ Config.ramSize) :
    (m.writeBytes a bs).read x = if a ≤ x ∧ x < a + bs.length then bs[x - a]? else m.read x := by
  induction bs generalizing m a with
  | nil => simp [Memory.writeBytes]
  | cons b bs ih =>
    simp only [List.length_cons] at h
    have ha : a < Config.ramSize := by omega
    rw [Memory.writeBytes, ih _ _ (by omega), Memory.read_write]
    simp only [ha, true_and, List.length_cons]
    by_cases hx : x = a
    · subst hx
      simp
    · by_cases hr : a ≤ x ∧ x < a + (bs.length + 1)
      · have h1 : a + 1 ≤ x ∧ x < a + 1 + bs.length := by omega
        have h2 : x - a = x - (a + 1) + 1 := by omega
        simp [hr, h1, h2]
      · have h1 : ¬ (a + 1 ≤ x ∧ x < a + 1 + bs.length) := by omega
        rw [if_neg h1, if_neg hx, if_neg hr]

/-! ### The canonical form -/

/-- The offset of the first entry, if any, is above `a`. -/
def Memory.above (m : Memory) (a : Nat) : Prop := ∀ p ∈ m.head?, a < p.1

theorem Memory.wf_cons (a : Nat) (b : Byte) (m : Memory) :
    Memory.wf ((a, b) :: m) = true ↔ a < Config.ramSize ∧ m.above a ∧ m.wf = true := by
  cases m with
  | nil => simp [Memory.wf, Memory.above]
  | cons h t =>
    obtain ⟨k, c⟩ := h
    simp only [Memory.wf, Memory.above, Bool.and_eq_true, decide_eq_true_eq, List.head?_cons, Option.mem_def,
      Option.some.injEq]
    constructor
    · rintro ⟨h1, h2⟩
      refine ⟨?_, ?_, h2⟩
      · have : k < Config.ramSize := by
          cases t with
          | nil => simpa [Memory.wf] using h2
          | cons h' t' =>
            clear h1
            induction t' generalizing k c h' with
            | nil =>
              obtain ⟨k', c'⟩ := h'
              simp only [Memory.wf, Bool.and_eq_true, decide_eq_true_eq] at h2
              omega
            | cons h'' t'' ih =>
              obtain ⟨k', c'⟩ := h'
              rw [Memory.wf] at h2
              simp only [Bool.and_eq_true, decide_eq_true_eq] at h2
              have := ih k' c' h'' h2.2
              omega
        omega
      · rintro p rfl
        exact h1
    · rintro ⟨-, h2, h3⟩
      exact ⟨h2 (k, c) rfl, h3⟩

theorem Memory.insert_above (m : Memory) (k a : Nat) (b : Byte) (h : m.above k) (hk : k < a) :
    (m.insert a b).above k := by
  cases m with
  | nil => simpa [Memory.insert, Memory.above] using hk
  | cons p t =>
    obtain ⟨j, c⟩ := p
    have hj : k < j := h (j, c) rfl
    simp only [Memory.insert]
    split
    · simpa [Memory.above] using hk
    · split
      · simpa [Memory.above] using hk
      · simpa [Memory.above] using hj

theorem Memory.wf_insert (m : Memory) (a : Nat) (b : Byte) (ha : a < Config.ramSize) (h : m.wf = true) :
    (m.insert a b).wf = true := by
  induction m with
  | nil => simpa [Memory.insert, Memory.wf] using ha
  | cons p t ih =>
    obtain ⟨k, c⟩ := p
    obtain ⟨hk, hab, ht⟩ := (Memory.wf_cons k c t).1 h
    simp only [Memory.insert]
    split
    · rename_i hlt
      refine (Memory.wf_cons a b _).2 ⟨ha, ?_, h⟩
      rintro p hp
      cases hp
      exact hlt
    · split
      · rename_i _ heq
        subst heq
        exact (Memory.wf_cons a b t).2 ⟨ha, hab, ht⟩
      · rename_i h1 h2
        exact (Memory.wf_cons k c _).2 ⟨hk, Memory.insert_above t k a b hab (by omega), ih ht⟩

theorem Memory.wf_write (m : Memory) (a : Nat) (b : Byte) (h : m.wf = true) : (m.write a b).wf = true := by
  unfold Memory.write
  split
  · exact Memory.wf_insert m a b ‹_› h
  · exact h

theorem Memory.wf_writeBytes (m : Memory) (a : Nat) (bs : Bytes) (h : m.wf = true) : (m.writeBytes a bs).wf = true := by
  induction bs generalizing m a with
  | nil => exact h
  | cons b bs ih => exact ih _ _ (Memory.wf_write m a b h)

theorem memWrite_wf (s : State) (a : Nat) (bs : Bytes) (h : Memory.wf s.ram = true) :
    Memory.wf (memWrite s a bs).ram = true := Memory.wf_writeBytes s.ram a bs h

theorem reset_memory_wf : Memory.wf State.reset.ram = true := rfl

/-- A byte read after a string write, through the power-on contents (log 3). -/
theorem ramByte_memWrite (s : State) (a : Nat) (bs : Bytes) (x : Nat) (h : a + bs.length ≤ Config.ramSize) :
    ramByte (memWrite s a bs) x =
      if hx : a ≤ x ∧ x < a + bs.length then bs[x - a]'(by omega) else ramByte s x := by
  simp only [ramByte, memWrite, Memory.read_writeBytes _ _ _ _ h]
  by_cases hx : a ≤ x ∧ x < a + bs.length
  · have : x - a < bs.length := by omega
    simp [hx, this]
  · simp [hx]

/-- Reading back a written string. -/
theorem memRead_memWrite_same (s : State) (a : Nat) (bs : Bytes) (h : a + bs.length ≤ Config.ramSize) :
    memRead (memWrite s a bs) a bs.length = bs := by
  apply List.ext_getElem?
  intro i
  rw [memRead_getElem?]
  by_cases hi : i < bs.length
  · rw [ramByte_memWrite s a bs _ h]
    simp [hi]
  · simp [hi]

/-- A range a write does not touch reads as before. -/
theorem memRead_memWrite_disjoint (s : State) (a : Nat) (bs : Bytes) (b n : Nat)
    (h : a + bs.length ≤ Config.ramSize) (hd : b + n ≤ a ∨ a + bs.length ≤ b) :
    memRead (memWrite s a bs) b n = memRead s b n := by
  apply List.ext_getElem?
  intro i
  simp only [memRead_getElem?]
  by_cases hi : i < n
  · rw [ramByte_memWrite s a bs _ h]
    have : ¬ (a ≤ b + i ∧ b + i < a + bs.length) := by omega
    simp [this]
  · simp [hi]

end Sys2Proof.Machine
end

