-- ==== Sys2Proof/Laws/Commands.lean ====
section
/-! SUPPORT. What every command is: its checks and effects as one `Except Code State`, ended by the shared epilogue. -/

namespace Sys2Proof.Machine

theorem epilogue_ok (t : State) : epilogue .ok t = okState t := rfl

theorem epilogue_error (c : Code) (h : c ≠ .ok) (s : State) : epilogue c s = errState c s := by
  simp [epilogue, errState, h]

/-- The checks and effects of a command, before the epilogue. -/
def commandOf (i : Instr) (s : State) : Except Code State :=
  match i with
  | .nop => .ok s
  | .wipe => if sbusy s then .error .busy else .ok (wipeState s)
  | .softReset => if sbusy s then .error .busy else .ok (softResetState (closeRxC s))
  | .aesEnc ks len => ecbCommand aesEnc ks len s
  | .aesDec ks len => ecbCommand aesDec ks len s
  | .cmac ks len =>
    if !inRam (srcOff s) len then .error .bounds
    else .ok (setTag s (cmac (key s ks) (memRead s (srcOff s) len)).toList)
  | .ctrCrypt ks dir single len =>
    if single && 16 < len then .error .config
    else if !inRam (srcOff s) len || !inRam (dstOff s) len then .error .bounds
    else .ok (memWrite s (dstOff s)
      (ctr (key s ks) (BitVec.ofNat 8 (bits s.regs.aux0 7 0)) dir s.regs.devAddr s.regs.fcnt single
        (memRead s (srcOff s) len)))
  | .mic ks dir rev append verify len => micCommand ks dir rev append verify len s
  | .kdf ks len =>
    if 15 < len then .error .config
    else if !inRam (srcOff s) len then .error .bounds
    else .ok (setKey s (slotField s.regs.aux1 0) (aesEnc (key s ks)
      (blockOf ([BitVec.ofNat 8 (bits s.regs.aux0 7 0)] ++ memRead s (srcOff s) len ++ zeros (15 - len)))))
  | .deriveSession rev => .ok (match rev with
    | .r10 => deriveSession10 s
    | .r11 => deriveSession11 s)
  | .deriveJs rev => match rev with
    | .r10 => .error .config
    | .r11 => .ok (setKey (setKey s 6 (aesEnc (key s 1) (blockOf (blkJs 0x06 (devEui s))))) 7
        (aesEnc (key s 1) (blockOf (blkJs 0x05 (devEui s)))))
  | .storeLe len => storeCommand leBytes len s
  | .storeBe len => storeCommand beBytes len s
  | .loadLe len => loadCommand leVal len s
  | .loadBe len => loadCommand beVal len s
  | .fctrlPack =>
    if Config.foptsMax < bits s.regs.aux0 15 8 then .error .config else .ok (setRes0 s (fctrlPackValue s.regs.aux0))
  | .fctrlUnpack => .ok (setRes0 s (fctrlUnpackValue s.regs.aux0))
  | .buildUplink rev len => buildUplinkCommand rev len s
  | .parseDownlink rev len => parseDownlinkCommand rev len s
  | .buildJoinreq rev =>
    if !inRam (dstOff s) Config.joinReqLen then .error .bounds
    else .ok (setRes0 (memWrite s (dstOff s) (joinReqMsg s ++ joinReqMic rev s)) (leVal (joinReqMic rev s)))
  | .parseJoinacc rev len => parseJoinaccCommand rev len s
  | .fcntInfer => .ok (setRes0 s (infer s.regs.fcnt (bits s.regs.aux0 15 0)).toNat)
  | .checksum verify append => checksumCommand verify append s
  | .dcCheck retx =>
    if !dcEn s then .ok (setGate s 0 0 0)
    else if s.regs.dcMsph = 0 then .error .config
    else .ok (setGate s (dutyInterval s - dutyElapsed s) (dutyInterval s) (flag (dutyBlocked s && !retx)))
  | .send retx rdelay => sendCommand retx rdelay s

/-- Every command is its checks and effects, then the epilogue (R101). -/
theorem exec_eq_complete (i : Instr) (s : State) : exec i s = complete s (commandOf i s) := by
  cases i <;> rfl

/-- A command whose checks pass ends in `okState` of its effects. -/
theorem exec_ok {i : Instr} {s t : State} (h : commandOf i s = .ok t) : exec i s = .next (okState t) := by
  rw [exec_eq_complete, h]; rfl

/-- A command that raises ends in `errState` of its code. -/
theorem exec_error {i : Instr} {s : State} {c : Code} (hc : c ≠ .ok) (h : commandOf i s = .error c) :
    exec i s = .next (errState c s) := by
  rw [exec_eq_complete, h, complete, epilogue_error c hc]

/-- Every command ends in a next state. -/
theorem exec_isNext (i : Instr) (s : State) : ∃ t, exec i s = .next t := by
  rw [exec_eq_complete]
  cases commandOf i s with
  | ok t => exact ⟨_, rfl⟩
  | error c => exact ⟨_, rfl⟩

/-- Every command's next state is the epilogue of its effects, or of the old state. -/
theorem exec_next_cases {i : Instr} {s t : State} (h : exec i s = .next t) :
    (∃ u, commandOf i s = .ok u ∧ t = epilogue .ok u) ∨ (∃ c, commandOf i s = .error c ∧ t = epilogue c s) := by
  rw [exec_eq_complete] at h
  cases hc : commandOf i s with
  | ok u => rw [hc] at h; cases h; exact .inl ⟨u, rfl, rfl⟩
  | error c => rw [hc] at h; cases h; exact .inr ⟨c, rfl, rfl⟩

/-- A check on a RAM range, as an inequality (R103). -/
theorem inRam_eq (a n : Nat) : (!inRam a n) = pastRam a n := by
  by_cases h : a + n ≤ 512
  · simp [inRam, pastRam, Config.ramSize, h, Nat.not_lt.2 h]
  · simp [inRam, pastRam, Config.ramSize, h, Nat.lt_of_not_le h]

end Sys2Proof.Machine
end

