-- ==== Sys2Proof/Laws/PerInstr.lean ====
section
/-! SUPPORT. The statements made of every instruction: the OP and RSV fields of its word (R90, R97, R98). -/

namespace Sys2Proof.Laws.OpcodeField

/-- The OP value that the opcode map gives a command (R98). -/
def opcode : Instr → Nat
  | .nop => 0x00
  | .wipe => 0x01
  | .softReset => 0x02
  | .aesEnc _ _ => 0x10
  | .aesDec _ _ => 0x11
  | .cmac _ _ => 0x12
  | .ctrCrypt _ _ _ _ => 0x13
  | .mic _ _ _ _ _ _ => 0x14
  | .kdf _ _ => 0x15
  | .deriveSession _ => 0x16
  | .deriveJs _ => 0x17
  | .storeLe _ => 0x20
  | .storeBe _ => 0x21
  | .loadLe _ => 0x22
  | .loadBe _ => 0x23
  | .fctrlPack => 0x24
  | .fctrlUnpack => 0x25
  | .buildUplink _ _ => 0x26
  | .parseDownlink _ _ => 0x27
  | .buildJoinreq _ => 0x28
  | .parseJoinacc _ _ => 0x29
  | .fcntInfer => 0x2A
  | .checksum _ _ => 0x2B
  | .dcCheck _ => 0x30
  | .send _ _ => 0x38

/-- A well-formed command's word carries its OP in bits 7:0 and 0 in RSV (R90, R97, R98). -/
def Statement (i : Instr) : Prop :=
  i.wellFormed = true → bits (encode i) 7 0 = opcode i ∧ bits (encode i) 31 24 = 0

/-- OP and RSV of a packed word whose fields fit. -/
theorem packWord_op_rsv {op ks dir rev f0 f1 len : Nat} (ho : op < 256) (hk : ks < 8) (hd : dir < 2) (hr : rev < 2)
    (h0 : f0 < 2) (h1 : f1 < 2) (hl : len < 256) :
    bits (packWord op ks dir rev f0 f1 len) 7 0 = op ∧ bits (packWord op ks dir rev f0 f1 len) 31 24 = 0 := by
  simp only [bits, packWord, BitVec.toNat_ofNat]
  omega

theorem dirBit_lt (d : Dir) : dirBit d < 2 := by cases d <;> decide

theorem revBit_lt (r : Rev) : revBit r < 2 := by cases r <;> decide

theorem flagBit_lt (b : Bool) : b.toNat < 2 := by cases b <;> decide

theorem nop : Statement .nop := fun _ =>
  packWord_op_rsv (by decide) (by decide) (by decide) (by decide) (by decide) (by decide) (by decide)

theorem wipe : Statement .wipe := fun _ =>
  packWord_op_rsv (by decide) (by decide) (by decide) (by decide) (by decide) (by decide) (by decide)

theorem softReset : Statement .softReset := fun _ =>
  packWord_op_rsv (by decide) (by decide) (by decide) (by decide) (by decide) (by decide) (by decide)

theorem aesEnc (ks : Fin 8) (len : Nat) : Statement (.aesEnc ks len) := fun h =>
  packWord_op_rsv (by decide) ks.isLt (by decide) (by decide) (by decide) (by decide) (of_decide_eq_true h)

theorem aesDec (ks : Fin 8) (len : Nat) : Statement (.aesDec ks len) := fun h =>
  packWord_op_rsv (by decide) ks.isLt (by decide) (by decide) (by decide) (by decide) (of_decide_eq_true h)

theorem cmac (ks : Fin 8) (len : Nat) : Statement (.cmac ks len) := fun h =>
  packWord_op_rsv (by decide) ks.isLt (by decide) (by decide) (by decide) (by decide) (of_decide_eq_true h)

theorem ctrCrypt (ks : Fin 8) (dir : Dir) (f0 : Bool) (len : Nat) : Statement (.ctrCrypt ks dir f0 len) := fun h =>
  packWord_op_rsv (by decide) ks.isLt (dirBit_lt dir) (by decide) (flagBit_lt f0) (by decide) (of_decide_eq_true h)

theorem mic (ks : Fin 8) (dir : Dir) (rev : Rev) (f0 : Bool) (f1 : Bool) (len : Nat) : Statement (.mic ks dir rev f0 f1 len) := fun h =>
  packWord_op_rsv (by decide) ks.isLt (dirBit_lt dir) (revBit_lt rev) (flagBit_lt f0) (flagBit_lt f1) (of_decide_eq_true h)

theorem kdf (ks : Fin 8) (len : Nat) : Statement (.kdf ks len) := fun h =>
  packWord_op_rsv (by decide) ks.isLt (by decide) (by decide) (by decide) (by decide) (of_decide_eq_true h)

theorem deriveSession (rev : Rev) : Statement (.deriveSession rev) := fun _ =>
  packWord_op_rsv (by decide) (by decide) (by decide) (revBit_lt rev) (by decide) (by decide) (by decide)

theorem deriveJs (rev : Rev) : Statement (.deriveJs rev) := fun _ =>
  packWord_op_rsv (by decide) (by decide) (by decide) (revBit_lt rev) (by decide) (by decide) (by decide)

theorem storeLe (len : Nat) : Statement (.storeLe len) := fun h =>
  packWord_op_rsv (by decide) (by decide) (by decide) (by decide) (by decide) (by decide) (of_decide_eq_true h)

theorem storeBe (len : Nat) : Statement (.storeBe len) := fun h =>
  packWord_op_rsv (by decide) (by decide) (by decide) (by decide) (by decide) (by decide) (of_decide_eq_true h)

theorem loadLe (len : Nat) : Statement (.loadLe len) := fun h =>
  packWord_op_rsv (by decide) (by decide) (by decide) (by decide) (by decide) (by decide) (of_decide_eq_true h)

theorem loadBe (len : Nat) : Statement (.loadBe len) := fun h =>
  packWord_op_rsv (by decide) (by decide) (by decide) (by decide) (by decide) (by decide) (of_decide_eq_true h)

theorem fctrlPack : Statement .fctrlPack := fun _ =>
  packWord_op_rsv (by decide) (by decide) (by decide) (by decide) (by decide) (by decide) (by decide)

theorem fctrlUnpack : Statement .fctrlUnpack := fun _ =>
  packWord_op_rsv (by decide) (by decide) (by decide) (by decide) (by decide) (by decide) (by decide)

theorem buildUplink (rev : Rev) (len : Nat) : Statement (.buildUplink rev len) := fun h =>
  packWord_op_rsv (by decide) (by decide) (by decide) (revBit_lt rev) (by decide) (by decide) (of_decide_eq_true h)

theorem parseDownlink (rev : Rev) (len : Nat) : Statement (.parseDownlink rev len) := fun h =>
  packWord_op_rsv (by decide) (by decide) (by decide) (revBit_lt rev) (by decide) (by decide) (of_decide_eq_true h)

theorem buildJoinreq (rev : Rev) : Statement (.buildJoinreq rev) := fun _ =>
  packWord_op_rsv (by decide) (by decide) (by decide) (revBit_lt rev) (by decide) (by decide) (by decide)

theorem parseJoinacc (rev : Rev) (len : Nat) : Statement (.parseJoinacc rev len) := fun h =>
  packWord_op_rsv (by decide) (by decide) (by decide) (revBit_lt rev) (by decide) (by decide) (of_decide_eq_true h)

theorem fcntInfer : Statement .fcntInfer := fun _ =>
  packWord_op_rsv (by decide) (by decide) (by decide) (by decide) (by decide) (by decide) (by decide)

theorem checksum (f0 : Bool) (f1 : Bool) : Statement (.checksum f0 f1) := fun _ =>
  packWord_op_rsv (by decide) (by decide) (by decide) (by decide) (flagBit_lt f0) (flagBit_lt f1) (by decide)

theorem dcCheck (f0 : Bool) : Statement (.dcCheck f0) := fun _ =>
  packWord_op_rsv (by decide) (by decide) (by decide) (by decide) (flagBit_lt f0) (by decide) (by decide)

theorem send (f0 : Bool) (f1 : Bool) : Statement (.send f0 f1) := fun _ =>
  packWord_op_rsv (by decide) (by decide) (by decide) (by decide) (flagBit_lt f0) (flagBit_lt f1) (by decide)

end Sys2Proof.Laws.OpcodeField
end

