-- ==== Sys2Proof/Laws/State.lean ====
section
/-! SUPPORT. What each named update does to each field of State, true by rfl: later proofs never unfold a record update. -/

namespace Sys2Proof.Machine

@[simp] theorem emit_regs (r : Request) (s : State) : (emit r s).regs = s.regs := rfl
@[simp] theorem emit_keys (r : Request) (s : State) : (emit r s).keys = s.keys := rfl
@[simp] theorem emit_ram (r : Request) (s : State) : (emit r s).ram = s.ram := rfl
@[simp] theorem emit_sched (r : Request) (s : State) : (emit r s).sched = s.sched := rfl
@[simp] theorem emit_radioPending (r : Request) (s : State) : (emit r s).radioPending = r.pending := rfl
@[simp] theorem emit_busFault (r : Request) (s : State) : (emit r s).busFault = s.busFault := rfl
@[simp] theorem emit_inputs (r : Request) (s : State) : (emit r s).inputs = s.inputs := rfl
@[simp] theorem emit_busOut (r : Request) (s : State) : (emit r s).busOut = s.busOut := rfl
@[simp] theorem emit_radioOut (r : Request) (s : State) : (emit r s).radioOut = s.radioOut ++ [r] := rfl

@[simp] theorem epilogue_regs (c : Code) (s : State) :
    (epilogue c s).regs =
      { s.regs with err := c, irqStat := s.regs.irqStat ||| if c = .ok then 1 else 3 } := rfl
@[simp] theorem epilogue_keys (c : Code) (s : State) : (epilogue c s).keys = s.keys := rfl
@[simp] theorem epilogue_ram (c : Code) (s : State) : (epilogue c s).ram = s.ram := rfl
@[simp] theorem epilogue_sched (c : Code) (s : State) : (epilogue c s).sched = s.sched := rfl
@[simp] theorem epilogue_radioPending (c : Code) (s : State) : (epilogue c s).radioPending = s.radioPending := rfl
@[simp] theorem epilogue_busFault (c : Code) (s : State) : (epilogue c s).busFault = s.busFault := rfl
@[simp] theorem epilogue_inputs (c : Code) (s : State) : (epilogue c s).inputs = s.inputs := rfl
@[simp] theorem epilogue_busOut (c : Code) (s : State) : (epilogue c s).busOut = s.busOut := rfl
@[simp] theorem epilogue_radioOut (c : Code) (s : State) : (epilogue c s).radioOut = s.radioOut := rfl

@[simp] theorem memWrite_regs (s : State) (a : Nat) (b : Bytes) : (memWrite s a b).regs = s.regs := rfl
@[simp] theorem memWrite_keys (s : State) (a : Nat) (b : Bytes) : (memWrite s a b).keys = s.keys := rfl
@[simp] theorem memWrite_ram (s : State) (a : Nat) (b : Bytes) :
    (memWrite s a b).ram =
      Memory.writeBytes s.ram a b := rfl
@[simp] theorem memWrite_sched (s : State) (a : Nat) (b : Bytes) : (memWrite s a b).sched = s.sched := rfl
@[simp] theorem memWrite_radioPending (s : State) (a : Nat) (b : Bytes) :
    (memWrite s a b).radioPending =
      s.radioPending := rfl
@[simp] theorem memWrite_busFault (s : State) (a : Nat) (b : Bytes) : (memWrite s a b).busFault = s.busFault := rfl
@[simp] theorem memWrite_inputs (s : State) (a : Nat) (b : Bytes) : (memWrite s a b).inputs = s.inputs := rfl
@[simp] theorem memWrite_busOut (s : State) (a : Nat) (b : Bytes) : (memWrite s a b).busOut = s.busOut := rfl
@[simp] theorem memWrite_radioOut (s : State) (a : Nat) (b : Bytes) : (memWrite s a b).radioOut = s.radioOut := rfl

@[simp] theorem setKey_regs (s : State) (n : Fin 8) (k : Block) : (setKey s n k).regs = s.regs := rfl
@[simp] theorem setKey_keys (s : State) (n : Fin 8) (k : Block) : (setKey s n k).keys = s.keys.set n k := rfl
@[simp] theorem setKey_ram (s : State) (n : Fin 8) (k : Block) : (setKey s n k).ram = s.ram := rfl
@[simp] theorem setKey_sched (s : State) (n : Fin 8) (k : Block) : (setKey s n k).sched = s.sched := rfl
@[simp] theorem setKey_radioPending (s : State) (n : Fin 8) (k : Block) :
    (setKey s n k).radioPending =
      s.radioPending := rfl
@[simp] theorem setKey_busFault (s : State) (n : Fin 8) (k : Block) : (setKey s n k).busFault = s.busFault := rfl
@[simp] theorem setKey_inputs (s : State) (n : Fin 8) (k : Block) : (setKey s n k).inputs = s.inputs := rfl
@[simp] theorem setKey_busOut (s : State) (n : Fin 8) (k : Block) : (setKey s n k).busOut = s.busOut := rfl
@[simp] theorem setKey_radioOut (s : State) (n : Fin 8) (k : Block) : (setKey s n k).radioOut = s.radioOut := rfl

@[simp] theorem setRes0_regs (s : State) (v : Nat) : (setRes0 s v).regs = { s.regs with res0 := word v } := rfl
@[simp] theorem setRes0_keys (s : State) (v : Nat) : (setRes0 s v).keys = s.keys := rfl
@[simp] theorem setRes0_ram (s : State) (v : Nat) : (setRes0 s v).ram = s.ram := rfl
@[simp] theorem setRes0_sched (s : State) (v : Nat) : (setRes0 s v).sched = s.sched := rfl
@[simp] theorem setRes0_radioPending (s : State) (v : Nat) : (setRes0 s v).radioPending = s.radioPending := rfl
@[simp] theorem setRes0_busFault (s : State) (v : Nat) : (setRes0 s v).busFault = s.busFault := rfl
@[simp] theorem setRes0_inputs (s : State) (v : Nat) : (setRes0 s v).inputs = s.inputs := rfl
@[simp] theorem setRes0_busOut (s : State) (v : Nat) : (setRes0 s v).busOut = s.busOut := rfl
@[simp] theorem setRes0_radioOut (s : State) (v : Nat) : (setRes0 s v).radioOut = s.radioOut := rfl

@[simp] theorem setVal_regs (s : State) (v : Nat) :
    (setVal s v).regs =
      { s.regs with valLo := word v, valHi := word (v / 2 ^ 32) } := rfl
@[simp] theorem setVal_keys (s : State) (v : Nat) : (setVal s v).keys = s.keys := rfl
@[simp] theorem setVal_ram (s : State) (v : Nat) : (setVal s v).ram = s.ram := rfl
@[simp] theorem setVal_sched (s : State) (v : Nat) : (setVal s v).sched = s.sched := rfl
@[simp] theorem setVal_radioPending (s : State) (v : Nat) : (setVal s v).radioPending = s.radioPending := rfl
@[simp] theorem setVal_busFault (s : State) (v : Nat) : (setVal s v).busFault = s.busFault := rfl
@[simp] theorem setVal_inputs (s : State) (v : Nat) : (setVal s v).inputs = s.inputs := rfl
@[simp] theorem setVal_busOut (s : State) (v : Nat) : (setVal s v).busOut = s.busOut := rfl
@[simp] theorem setVal_radioOut (s : State) (v : Nat) : (setVal s v).radioOut = s.radioOut := rfl

@[simp] theorem outcome_regs (w : Nat) (e : Code) (s : State) :
    (outcome w e s).regs =
      { s.regs with sendResult := sendResultWord w e, irqStat := s.regs.irqStat ||| irqSendDone } := rfl
@[simp] theorem outcome_keys (w : Nat) (e : Code) (s : State) : (outcome w e s).keys = s.keys := rfl
@[simp] theorem outcome_ram (w : Nat) (e : Code) (s : State) : (outcome w e s).ram = s.ram := rfl
@[simp] theorem outcome_sched (w : Nat) (e : Code) (s : State) :
    (outcome w e s).sched =
      { s.sched with fsm := .idle, guardPhase := .launch, randAcc := [], snap := none } := rfl
@[simp] theorem outcome_radioPending (w : Nat) (e : Code) (s : State) :
    (outcome w e s).radioPending =
      s.radioPending := rfl
@[simp] theorem outcome_busFault (w : Nat) (e : Code) (s : State) : (outcome w e s).busFault = s.busFault := rfl
@[simp] theorem outcome_inputs (w : Nat) (e : Code) (s : State) : (outcome w e s).inputs = s.inputs := rfl
@[simp] theorem outcome_busOut (w : Nat) (e : Code) (s : State) : (outcome w e s).busOut = s.busOut := rfl
@[simp] theorem outcome_radioOut (w : Nat) (e : Code) (s : State) : (outcome w e s).radioOut = s.radioOut := rfl

@[simp] theorem storeFrame_regs (off : Nat) (b : Bytes) (s : State) :
    (storeFrame off b s).regs =
      { s.regs with rxBuf := setRxLen s.regs.rxBuf b.length, rxPend := true } := rfl
@[simp] theorem storeFrame_keys (off : Nat) (b : Bytes) (s : State) : (storeFrame off b s).keys = s.keys := rfl
@[simp] theorem storeFrame_ram (off : Nat) (b : Bytes) (s : State) :
    (storeFrame off b s).ram =
      Memory.writeBytes s.ram off b := rfl
@[simp] theorem storeFrame_sched (off : Nat) (b : Bytes) (s : State) : (storeFrame off b s).sched = s.sched := rfl
@[simp] theorem storeFrame_radioPending (off : Nat) (b : Bytes) (s : State) :
    (storeFrame off b s).radioPending =
      s.radioPending := rfl
@[simp] theorem storeFrame_busFault (off : Nat) (b : Bytes) (s : State) :
    (storeFrame off b s).busFault =
      s.busFault := rfl
@[simp] theorem storeFrame_inputs (off : Nat) (b : Bytes) (s : State) : (storeFrame off b s).inputs = s.inputs := rfl
@[simp] theorem storeFrame_busOut (off : Nat) (b : Bytes) (s : State) : (storeFrame off b s).busOut = s.busOut := rfl
@[simp] theorem storeFrame_radioOut (off : Nat) (b : Bytes) (s : State) :
    (storeFrame off b s).radioOut =
      s.radioOut := rfl

@[simp] theorem beginStep_regs (s : State) : (beginStep s).regs = s.regs := rfl
@[simp] theorem beginStep_keys (s : State) : (beginStep s).keys = s.keys := rfl
@[simp] theorem beginStep_ram (s : State) : (beginStep s).ram = s.ram := rfl
@[simp] theorem beginStep_sched (s : State) : (beginStep s).sched = s.sched := rfl
@[simp] theorem beginStep_radioPending (s : State) : (beginStep s).radioPending = s.radioPending := rfl
@[simp] theorem beginStep_busFault (s : State) : (beginStep s).busFault = s.busFault := rfl
@[simp] theorem beginStep_inputs (s : State) : (beginStep s).inputs = s.inputs := rfl
@[simp] theorem beginStep_busOut (s : State) : (beginStep s).busOut = .idle := rfl
@[simp] theorem beginStep_radioOut (s : State) : (beginStep s).radioOut = [] := rfl

@[simp] theorem clockStep_regs (s : State) : (clockStep s).regs = { s.regs with now := s.regs.now + 1 } := rfl
@[simp] theorem clockStep_keys (s : State) : (clockStep s).keys = s.keys := rfl
@[simp] theorem clockStep_ram (s : State) : (clockStep s).ram = s.ram := rfl
@[simp] theorem clockStep_sched (s : State) : (clockStep s).sched = s.sched := rfl
@[simp] theorem clockStep_radioPending (s : State) : (clockStep s).radioPending = s.radioPending := rfl
@[simp] theorem clockStep_busFault (s : State) : (clockStep s).busFault = s.busFault := rfl
@[simp] theorem clockStep_inputs (s : State) : (clockStep s).inputs = s.inputs := rfl
@[simp] theorem clockStep_busOut (s : State) : (clockStep s).busOut = s.busOut := rfl
@[simp] theorem clockStep_radioOut (s : State) : (clockStep s).radioOut = s.radioOut := rfl

@[simp] theorem busFault_regs (s : State) : (busFault s).regs = s.regs := rfl
@[simp] theorem busFault_keys (s : State) : (busFault s).keys = s.keys := rfl
@[simp] theorem busFault_ram (s : State) : (busFault s).ram = s.ram := rfl
@[simp] theorem busFault_sched (s : State) : (busFault s).sched = s.sched := rfl
@[simp] theorem busFault_radioPending (s : State) : (busFault s).radioPending = s.radioPending := rfl
@[simp] theorem busFault_busFault (s : State) : (busFault s).busFault = true := rfl
@[simp] theorem busFault_inputs (s : State) : (busFault s).inputs = s.inputs := rfl
@[simp] theorem busFault_busOut (s : State) : (busFault s).busOut = .error := rfl
@[simp] theorem busFault_radioOut (s : State) : (busFault s).radioOut = s.radioOut := rfl

@[simp] theorem closeRxC_regs (s : State) : (closeRxC s).regs = s.regs := by unfold closeRxC; split <;> rfl
@[simp] theorem closeRxC_keys (s : State) : (closeRxC s).keys = s.keys := by unfold closeRxC; split <;> rfl
@[simp] theorem closeRxC_ram (s : State) : (closeRxC s).ram = s.ram := by unfold closeRxC; split <;> rfl
@[simp] theorem closeRxC_sched (s : State) : (closeRxC s).sched = s.sched := by unfold closeRxC; split <;> rfl
@[simp] theorem closeRxC_busFault (s : State) : (closeRxC s).busFault = s.busFault := by unfold closeRxC; split <;> rfl
@[simp] theorem closeRxC_inputs (s : State) : (closeRxC s).inputs = s.inputs := by unfold closeRxC; split <;> rfl
@[simp] theorem closeRxC_busOut (s : State) : (closeRxC s).busOut = s.busOut := by unfold closeRxC; split <;> rfl

/-- Cancelling an open RxC frees the radio and leaves any other request pending. -/
theorem closeRxC_radioPending (s : State) :
    (closeRxC s).radioPending = if s.radioPending = .rx .rxC then .none else s.radioPending := by
  unfold closeRxC; split <;> rfl

/-- Cancelling an open RxC emits one Standby. -/
theorem closeRxC_radioOut (s : State) :
    (closeRxC s).radioOut = s.radioOut ++ if s.radioPending = .rx .rxC then [.standby] else [] := by
  unfold closeRxC; split <;> simp

/-- A write of one key slot, read back by slot. -/
theorem key_setKey (s : State) (n m : Fin 8) (k : Block) : key (setKey s n k) m = if m = n then k else key s m := by
  simp only [key, setKey, Fin.getElem_fin, Vector.getElem_set, Fin.ext_iff]
  split <;> split <;> first | rfl | omega

@[simp] theorem elapsed_now (s : State) (t : Word) : elapsed s t = (s.regs.now - t).toNat := rfl

end Sys2Proof.Machine
end

