-- ==== Sys2Proof/Laws/Step.lean ====
section
/-! SUPPORT. What a step is, as the provers cite it: a due urgent step or an input, on the state `taken`; and the laws
of stored strings and of the keystream. -/

namespace Sys2Proof.Machine

/-- No guard reads an output of the last step. -/
theorem dueUrgent_taken (s : State) (l : List Input) : dueUrgent (taken s l) = dueUrgent s := by
  have h : urgentGuard (taken s l) = urgentGuard s := by funext u; cases u <;> rfl
  exact congrArg (fun f => [Urgent.u1, .u2, .u3, .u4, .u5, .u6].find? f) h

/-- A step is the due urgent step, or the next input (R252). -/
theorem step_eq (s : State) :
    step s = match dueUrgent s with
      | some u => runUrgent u (taken s s.inputs)
      | none => takeInput (taken s s.inputs) := by
  rw [← dueUrgent_taken s s.inputs]; rfl

/-- No urgent step is due exactly when every guard is false. -/
theorem dueUrgent_eq_none_iff (s : State) : dueUrgent s = none ↔ ∀ u, urgentGuard s u = false := by
  constructor
  · intro h u
    have hf := List.find?_eq_none.1 h
    cases u <;> exact Bool.eq_false_iff.2 (hf _ (by simp))
  · intro h
    exact List.find?_eq_none.2 fun u _ => by simp [h u]

/-- A due urgent step's guard is true. -/
theorem guard_of_dueUrgent {s : State} {u : Urgent} (h : dueUrgent s = some u) : urgentGuard s u = true :=
  List.find?_some h

/-- A true guard makes some urgent step due. -/
theorem dueUrgent_isSome {s : State} {u : Urgent} (h : urgentGuard s u = true) : ∃ v, dueUrgent s = some v := by
  cases hd : dueUrgent s with
  | some v => exact ⟨v, rfl⟩
  | none => rw [(dueUrgent_eq_none_iff s).1 hd u] at h; cases h

/-- What writing a string stores (R10). -/
theorem stored_writeBytes (m : Memory) (a : Nat) (bs : Bytes) (h : a + bs.length ≤ Config.ramSize) :
    Stored m (m.writeBytes a bs) a bs := by
  constructor
  · intro i hi
    rw [Memory.read_writeBytes _ _ _ _ h, if_pos (by omega)]
    congr 1; omega
  · intro x hx
    rw [Memory.read_writeBytes _ _ _ _ h, if_neg (by omega)]

/-- The keystream has the length asked for (R127). -/
@[simp] theorem keystream_length (k : Block) (c : Byte) (d : Dir) (a f : Word) (single : Bool) (n : Nat) :
    (keystream k c d a f single n).length = n := by
  have h : ∀ (g : Nat → Block) (l : List Nat), (l.flatMap fun j => (g j).toList).length = 16 * l.length := by
    intro g l
    induction l with
    | nil => rfl
    | cons x l ih => simp [ih]; omega
  rw [keystream, List.length_take, h fun j => aesEnc k (blockOf (blockA c d a f (if single then 0 else j + 1))),
    List.length_range]
  simp only [ceilDiv]
  omega

/-- The MIC of R132 is 4 bytes. -/
@[simp] theorem micNet_length (k : Block) (d : Dir) (a f : Word) (conf : Nat) (msg : Bytes) :
    (micNet k d a f conf msg).length = 4 := by simp [micNet]

/-- The MIC of a 1.1 uplink is 4 bytes. -/
@[simp] theorem micUp11_length (kf ks : Block) (a f : Word) (conf dr ch : Nat) (msg : Bytes) :
    (micUp11 kf ks a f conf dr ch msg).length = 4 := by simp [micUp11]

/-- RX_BUF after a reception of at most 255 bytes (R50, R266). -/
theorem setRxLen_eq (v : Word) (n : Nat) (h : n ≤ 255) : setRxLen v n = word (bits v 8 0 + n * 2 ^ 16) := by
  rw [setRxLen, Nat.mod_eq_of_lt (by omega)]

end Sys2Proof.Machine
end

