-- ==== Sys2Proof/Tests/Slice0.lean ====
section
/-! SUPPORT. The model's own tests: ill-formed terms, words written from the encoding, single steps against the vectors of
spec/95_test_vectors.md, and for every obligation with hypotheses or branches a state that meets them. -/

namespace Sys2Proof.Tests

set_option Elab.async false

open Sys2Proof Sys2Proof.Machine

/-! ### Helpers -/

/-- What `f` sees of the next state. -/
def after {α : Type} (o : Host.Outcome State Fault Refusal) (f : State → α) : Option α :=
  match o with
  | .next t => some (f t)
  | _ => none

/-- The reset state at NOW = `n`, with the registers changed by `f`. -/
def stateAt (n : Word) (f : Regs → Regs) : State := { State.reset with regs := f { Regs.reset with now := n } }

/-- RAM with one string stored. -/
def ramAt (a : Nat) (bs : Bytes) : Memory := Memory.writeBytes [] a bs

/-- The state with a key in one slot. -/
def withKey (n : Fin 8) (k : Nat) (s : State) : State := setKey s n (blockOf (beBytes 16 k))

/-- A word laid out field by field as R90 gives it, from bit 31 down: RSV, LEN, F2, F1, F0, REV, DIR, KS, OP. -/
def layout (rsv len : BitVec 8) (f2 f1 f0 rev dir : BitVec 1) (ks : BitVec 3) (op : BitVec 8) : Word :=
  rsv ++ len ++ f2 ++ f1 ++ f0 ++ rev ++ dir ++ ks ++ op

/-- The state at NOW = 0. -/
def base : State := stateAt 0 id

/-- A snapshot of the scheduler vectors' base configuration, with a one-byte frame. -/
def snap0 : Snapshot where
  cls := 0
  csmaEn := false
  difs := 2
  backoffMax := 3
  txFreq := 868100000
  txDr := 0
  txFrame := [0x40]
  rx1Freq := 868100000
  rx1Dr := 0
  rx1MaxPl := 51
  rx2Freq := 869525000
  rx2Dr := 0
  rx2MaxPl := 51
  rx1Delay := 1000
  rx2Delay := 2000
  guardMs := 10
  rxOff := 0x100
  retx := false
  rdelay := false
  rmin := 1000
  rmax := 3000

/-- The state at NOW = `n` of an attempt in FSM state `f`, whose transmission ended at 138. -/
def attempt (n : Word) (f : Fsm) (p : Pending) (g : GuardPhase) : State :=
  { stateAt n id with
    sched := { fsm := f, snap := some snap0, guardPhase := g, tEnd := some 138, tOpen := some 1138, randAcc := [], rxcOff := 0 }
    radioPending := p }

/-- Class C, idle, with RxC open or not. -/
def classC (p : Pending) : State :=
  { stateAt 900 fun g => { g with schedCtrl := 2, rxBuf := 0x100 } with
    radioPending := p, sched := { Sched.reset with rxcOff := 0x100 }, ram := [(0, 1)] }

/-- A state with one waiting input. -/
def given (s : State) (i : Input) : State := { s with inputs := [i] }

/-! ### WellFormed: LEN 256 has no encoding (R96) -/

theorem test_len_256_is_ill_formed (ks : Fin 8) (d : Dir) (r : Rev) (a b : Bool) :
    (Instr.aesEnc ks 256).wellFormed = false ∧ (Instr.aesDec ks 256).wellFormed = false ∧
    (Instr.cmac ks 256).wellFormed = false ∧ (Instr.ctrCrypt ks d a 256).wellFormed = false ∧
    (Instr.mic ks d r a b 256).wellFormed = false ∧ (Instr.kdf ks 256).wellFormed = false ∧
    (Instr.storeLe 256).wellFormed = false ∧ (Instr.storeBe 256).wellFormed = false ∧
    (Instr.loadLe 256).wellFormed = false ∧ (Instr.loadBe 256).wellFormed = false ∧
    (Instr.buildUplink r 256).wellFormed = false ∧ (Instr.parseDownlink r 256).wellFormed = false ∧
    (Instr.parseJoinacc r 256).wellFormed = false := by
  exact ⟨rfl, rfl, rfl, rfl, rfl, rfl, rfl, rfl, rfl, rfl, rfl, rfl, rfl⟩

/-! ### Decode: words written from R90, R98 and R105 -/

theorem test_decode_control :
    decode (layout 0 0 0 0 0 0 0 0 0x00) = .ok .nop ∧ decode (layout 0 0 0 0 0 0 0 0 0x01) = .ok .wipe ∧
    decode (layout 0 0 0 0 0 0 0 0 0x02) = .ok .softReset := by decide

theorem test_decode_crypto :
    decode (layout 0 16 0 0 0 0 0 3 0x10) = .ok (.aesEnc 3 16) ∧
    decode (layout 0 240 0 0 0 0 0 7 0x11) = .ok (.aesDec 7 240) ∧
    decode (layout 0 255 0 0 0 0 0 1 0x12) = .ok (.cmac 1 255) ∧
    decode (layout 0 5 0 0 1 0 1 2 0x13) = .ok (.ctrCrypt 2 .down true 5) ∧
    decode (layout 0 20 0 1 0 1 0 4 0x14) = .ok (.mic 4 .up .r11 false true 20) ∧
    decode (layout 0 8 0 0 0 0 0 5 0x15) = .ok (.kdf 5 8) ∧
    decode (layout 0 0 0 0 0 1 0 0 0x16) = .ok (.deriveSession .r11) ∧
    decode (layout 0 0 0 0 0 1 0 0 0x17) = .ok (.deriveJs .r11) := by decide

theorem test_decode_codec :
    decode (layout 0 4 0 0 0 0 0 0 0x20) = .ok (.storeLe 4) ∧ decode (layout 0 8 0 0 0 0 0 0 0x21) = .ok (.storeBe 8) ∧
    decode (layout 0 3 0 0 0 0 0 0 0x22) = .ok (.loadLe 3) ∧ decode (layout 0 1 0 0 0 0 0 0 0x23) = .ok (.loadBe 1) ∧
    decode (layout 0 0 0 0 0 0 0 0 0x24) = .ok .fctrlPack ∧ decode (layout 0 0 0 0 0 0 0 0 0x25) = .ok .fctrlUnpack ∧
    decode (layout 0 5 0 0 0 1 0 0 0x26) = .ok (.buildUplink .r11 5) ∧
    decode (layout 0 15 0 0 0 0 0 0 0x27) = .ok (.parseDownlink .r10 15) ∧
    decode (layout 0 0 0 0 0 1 0 0 0x28) = .ok (.buildJoinreq .r11) ∧
    decode (layout 0 33 0 0 0 1 0 0 0x29) = .ok (.parseJoinacc .r11 33) ∧
    decode (layout 0 0 0 0 0 0 0 0 0x2A) = .ok .fcntInfer ∧
    decode (layout 0 0 0 0 1 0 0 0 0x2B) = .ok (.checksum true false) := by decide

theorem test_decode_gate_and_scheduler :
    decode (layout 0 0 0 0 1 0 0 0 0x30) = .ok (.dcCheck true) ∧
    decode (layout 0 0 0 1 0 0 0 0 0x38) = .ok (.send false true) := by decide

/-- Every field a command does not read is ignored, F2 by all of them (R98, R100); RSV is not (R97). -/
theorem test_decode_ignores_unread_fields :
    decode (layout 0 0xFF 1 1 1 1 1 7 0x00) = .ok .nop ∧ decode (layout 0 0xFF 1 1 1 1 1 7 0x2A) = .ok .fcntInfer ∧
    decode (layout 0 16 1 1 1 1 1 3 0x10) = .ok (.aesEnc 3 16) ∧
    decode (layout 1 0 0 0 0 0 0 0 0x00) = .error .reservedBits ∧
    decode (layout 0x80 0 0 0 0 0 0 0 0x00) = .error .reservedBits := by decide

/-- The edges of R99's undefined ranges, and their defined neighbours. -/
theorem test_decode_undefined_ranges :
    (∀ op ∈ [0x03#8, 0x0F, 0x18, 0x1F, 0x2C, 0x2F, 0x31, 0x37, 0x39, 0xFF],
      decode (layout 0 0 0 0 0 0 0 0 op) = .error .undefinedOp) ∧
    (∀ op ∈ [0x00#8, 0x02, 0x10, 0x17, 0x20, 0x2B, 0x30, 0x38], (decode (layout 0 0 0 0 0 0 0 0 op)).isOk = true) := by
  decide

theorem test_encode_words :
    encode (.mic 4 .up .r10 true false 20) = 0x00142414 ∧ encode (.parseJoinacc .r11 33) = 0x00211029 ∧
    encode (.send true true) = 0x00006038 ∧ decodeTableWord 32 0x00050026 = some (.buildUplink .r10 5) ∧
    decodeTableWord 32 0x01000000 = none := by decide

/-! ### Single commands, against the spec's vectors -/

/-- CO-2, CO-12. -/
theorem test_nop_clears_err :
    after (exec .nop { attempt 200 .rx1Open (.rx .rx1) .launch with regs := { Regs.reset with now := 200, err := .replay } })
      (fun t => (t.regs.err, t.regs.irqStat)) = some (.ok, 1) := by decide +kernel

/-- CO-7. -/
theorem test_wipe :
    after (exec .wipe (withKey 2 0x000102030405060708090a0b0c0d0e0f
        (stateAt 0 fun g => { g with devAddr := 0x26011BDA, fcntUp := 5, lastJn := 0x80000001, dnValid := 7, res0 := 9 })))
      (fun t => ((key t 2).toList, t.regs.devAddr, t.regs.fcntUp, t.regs.lastJn, t.regs.dnValid, t.regs.res0)) =
      some (zeros 16, 0, 0, 0, 0, 9) := by decide +kernel

/-- CO-9, CO-11. -/
theorem test_busy_refuses_wipe_and_soft_reset :
    after (exec .wipe (attempt 200 .transmitting .tx .launch)) (fun t => (t.regs.err, t.regs.irqStat)) = some (.busy, 3) ∧
    after (exec .softReset (attempt 200 .rx1Open (.rx .rx1) .launch)) (fun t => (t.regs.err, t.sched.fsm)) =
      some (.busy, .rx1Open) := by decide +kernel

/-- CO-10. -/
theorem test_soft_reset :
    after (exec .softReset { classC (.rx .rxC) with
        ram := ramAt 0 [0x5A], regs := { (classC .none).regs with irqEn := 0xF, fcntUp := 9, cmd := 2, now := 777 } })
      (fun t => (t.radioOut, t.radioPending, t.regs.cmd, t.regs.irqEn, t.regs.schedCtrl, t.regs.fcntUp)) =
      some ([.standby], .none, 0, 0, 0, 0) ∧
    after (exec .softReset { classC (.rx .rxC) with ram := ramAt 0 [0x5A] })
      (fun t => (t.ram, t.regs.now, t.regs.irqStat, statusWord t)) = some ([(0, 0x5A)], 900, 1, 0) := by decide +kernel

/-- CO-4, CO-5: an undefined word through a whole step. -/
theorem test_step_illegal_word :
    after (step (State.reset.withFetchWord 32 0x01000000)) (fun t => (t.regs.err, t.regs.irqStat, t.regs.cmd, t.busOut)) =
      some (.illegal, 3, 0x01000000, .done) ∧
    after (step (State.reset.withFetchWord 32 0x00000003)) (fun t => t.regs.err) = some .illegal := by decide +kernel

/-- 70_reset_and_hazards.md R332: the first command after reset, through a whole step. -/
theorem test_step_first_command :
    after (step (State.reset.withFetchWord 32 0x00FF3F00)) (fun t => (t.regs.err, t.regs.irqStat, t.inputs)) =
      some (.ok, 1, []) ∧
    after (step (State.reset.withFetchWord 32 0x00000038)) (fun t => (t.regs.err, t.regs.sendResult)) =
      some (.config, 0) := by decide +kernel

/-- AE-1. -/
theorem test_aes_enc :
    after (exec (.aesEnc 0 16) (withKey 0 0x000102030405060708090a0b0c0d0e0f
        { base with ram := ramAt 0 (beBytes 16 0x00112233445566778899aabbccddeeff) }))
      (fun t => beVal (memRead t 0 16)) = some 0x69c4e0d86a7b0430d8cdb78070b4c55a := by decide +kernel

/-- AE-2. -/
theorem test_aes_dec :
    after (exec (.aesDec 0 16) (withKey 0 0x000102030405060708090a0b0c0d0e0f
        { base with ram := ramAt 0 (beBytes 16 0x69c4e0d86a7b0430d8cdb78070b4c55a) }))
      (fun t => beVal (memRead t 0 16)) = some 0x00112233445566778899aabbccddeeff := by decide +kernel

/-- AE-4, AE-5, and AE-6's boundary, the last one that runs. -/
theorem test_ecb_checks :
    firstFailure (checks (.aesEnc 0 15) base) = some .config ∧
    firstFailure (checks (.aesDec 0 16) (stateAt 0 fun g => { g with src := 497 })) = some .bounds ∧
    firstFailure (checks (.aesEnc 0 16) (stateAt 0 fun g => { g with src := 496 })) = none ∧
    firstFailure (checks (.aesDec 0 16) (stateAt 0 fun g => { g with src := 496, dst := 496 })) = none := by decide +kernel

/-- CM-1. -/
theorem test_cmac :
    after (exec (.cmac 1 16) (withKey 1 0x2b7e151628aed2a6abf7158809cf4f3c
        { base with ram := ramAt 0 (beBytes 16 0x6bc1bee22e409f96e93d7e117393172a) }))
      (fun t => (t.regs.res0, t.regs.res1, t.regs.res2, t.regs.res3)) =
      some (0xb4160a07, 0x44414d6b, 0x9ddd9bf7, 0x7c284ad0) := by decide +kernel

/-- CT-1. -/
theorem test_ctr_crypt :
    after (exec (.ctrCrypt 2 .up false 5) (withKey 2 0x2b7e151628aed2a6abf7158809cf4f3c
        { stateAt 0 (fun g => { g with devAddr := 0x26011BDA, fcnt := 1, dst := 0x40 }) with
          ram := ramAt 0 [0x68, 0x65, 0x6c, 0x6c, 0x6f] }))
      (fun t => memRead t 0x40 5) = some [0xea, 0x96, 0x55, 0x03, 0x7b] := by decide +kernel

/-- CT-7, CT-8, CT-6. -/
theorem test_ctr_crypt_checks :
    firstFailure (checks (.ctrCrypt 2 .up true 17) base) = some .config ∧
    firstFailure (checks (.ctrCrypt 2 .up false 5) (stateAt 0 fun g => { g with src := 510 })) = some .bounds ∧
    firstFailure (checks (.ctrCrypt 2 .up true 16) base) = none := by decide +kernel

/-- The state of MI-4, with the MIC of the empty message or another byte at SRC. -/
def mic4 (b : Byte) : State :=
  withKey 4 0x2b7e151628aed2a6abf7158809cf4f3c
    { stateAt 0 (fun g => { g with devAddr := 0x26011BDA }) with ram := ramAt 0 [b, 0xcc, 0xfc, 0xee, 0] }

/-- MI-4's MIC, as a value: RES0 = 0xceefcccc is `cc cc ef ce`. -/
theorem test_mic_value : leVal (micValue 4 .up .r10 (mic4 0) []) = 0xceefcccc := by decide +kernel

/-- MI-9, MI-10: the checks before the MIC. -/
theorem test_mic_checks :
    firstFailure (checks (.mic 4 .up .r10 true true 0) base) = some .config ∧
    firstFailure (checks (.mic 4 .up .r10 true false 4) (stateAt 0 fun g => { g with src := 506 })) = some .bounds ∧
    firstFailure (checks (.mic 4 .up .r10 true false 4) (stateAt 0 fun g => { g with src := 504 })) = none := by
  decide +kernel

/-- KD-1. -/
theorem test_kdf :
    after (exec (.kdf 0 8) (withKey 0 0x000102030405060708090a0b0c0d0e0f
        { stateAt 0 (fun g => { g with aux0 := 2, aux1 := 2 }) with ram := ramAt 0 [1, 0, 0, 0x13, 0, 0, 1, 0] }))
      (fun t => beVal (key t 2).toList) = some 0x5446b8bfd5a0d4c9942a2ecf24c391ba := by decide +kernel

/-- KD-3, and the bound on SRC. -/
theorem test_kdf_checks :
    firstFailure (checks (.kdf 0 16) base) = some .config ∧
    firstFailure (checks (.kdf 0 8) (stateAt 0 fun g => { g with src := 505 })) = some .bounds ∧
    firstFailure (checks (.kdf 0 15) base) = none := by decide +kernel

/-- DS-2: FNwkSIntKey. -/
theorem test_derive_session :
    after (exec (.deriveSession .r11) (withKey 1 0x0f0e0d0c0b0a09080706050403020100
        (stateAt 0 fun g => { g with aux0 := 1, aux2 := 1, joinEuiLo := 0x05060708, joinEuiHi := 0x01020304 })))
      (fun t => beVal (key t 4).toList) = some 0x7d3892863f482aa227a0a67987ad242c := by decide +kernel

/-- DJ-1: JSIntKey; DJ-2. -/
theorem test_derive_js :
    after (exec (.deriveJs .r11) (withKey 1 0x0f0e0d0c0b0a09080706050403020100
        (stateAt 0 fun g => { g with devEuiLo := 0x15161718, devEuiHi := 0x11121314 })))
      (fun t => beVal (key t 6).toList) = some 0x0db51470ef400248bb7221fab7e9a02b ∧
    after (exec (.deriveJs .r10) base) (fun t => t.regs.err) = some .config := by decide +kernel

/-- SL-1 to SL-4. -/
theorem test_store :
    after (exec (.storeLe 4) (stateAt 0 fun g => { g with valLo := 0x26011BDA })) (fun t => memRead t 0 4) =
      some [0xda, 0x1b, 0x01, 0x26] ∧
    after (exec (.storeBe 4) (stateAt 0 fun g => { g with valLo := 0x26011BDA })) (fun t => memRead t 0 4) =
      some [0x26, 0x01, 0x1b, 0xda] ∧
    after (exec (.storeLe 2) (stateAt 0 fun g => { g with valLo := 0x26011BDA })) (fun t => t.ram) =
      some [(0, 0xda), (1, 0x1b)] ∧
    after (exec (.storeLe 8) (stateAt 0 fun g => { g with valLo := 0x05060708, valHi := 0x01020304 }))
      (fun t => memRead t 0 8) = some [8, 7, 6, 5, 4, 3, 2, 1] := by decide +kernel

/-- SL-5, SL-6, and the last offset that holds four bytes. -/
theorem test_store_checks :
    firstFailure (checks (.storeLe 0) base) = some .config ∧ firstFailure (checks (.storeBe 9) base) = some .config ∧
    firstFailure (checks (.storeLe 4) (stateAt 0 fun g => { g with dst := 509 })) = some .bounds ∧
    firstFailure (checks (.storeBe 4) (stateAt 0 fun g => { g with dst := 508 })) = none := by decide +kernel

/-- SL-7 to SL-10. -/
theorem test_load :
    after (exec (.loadLe 3) { base with ram := ramAt 0 [1, 2, 3] }) (fun t => (t.regs.valLo, t.regs.valHi)) =
      some (0x00030201, 0) ∧
    after (exec (.loadBe 3) { base with ram := ramAt 0 [1, 2, 3] }) (fun t => (t.regs.valLo, t.regs.valHi)) =
      some (0x00010203, 0) ∧
    after (exec (.loadLe 8) { base with ram := ramAt 0 [1, 2, 3, 4, 5, 6, 7, 8] }) (fun t => (t.regs.valLo, t.regs.valHi)) =
      some (0x04030201, 0x08070605) ∧
    after (exec (.loadLe 1) { stateAt 0 (fun g => { g with valHi := 0xFFFFFFFF }) with ram := ramAt 0 [0xFF] })
      (fun t => (t.regs.valLo, t.regs.valHi)) = some (0xFF, 0) := by decide +kernel

/-- LOAD's checks. -/
theorem test_load_checks :
    firstFailure (checks (.loadLe 9) base) = some .config ∧
    firstFailure (checks (.loadBe 2) (stateAt 0 fun g => { g with src := 511 })) = some .bounds ∧
    firstFailure (checks (.loadBe 1) (stateAt 0 fun g => { g with src := 511 })) = none := by decide +kernel

/-- FC-1 to FC-7. -/
theorem test_fctrl :
    after (exec .fctrlPack (stateAt 0 fun g => { g with aux0 := 0x305 })) (fun t => t.regs.res0) = some 0xA3 ∧
    after (exec .fctrlPack (stateAt 0 fun g => { g with aux0 := 0xFFFF00F0 })) (fun t => t.regs.res0) = some 0 ∧
    after (exec .fctrlPack (stateAt 0 fun g => { g with aux0 := 0x1000 })) (fun t => t.regs.err) = some .config ∧
    after (exec .fctrlUnpack (stateAt 0 fun g => { g with aux0 := 0xA3 })) (fun t => t.regs.res0) = some 0x305 ∧
    after (exec .fctrlUnpack (stateAt 0 fun g => { g with aux0 := 0x10 })) (fun t => t.regs.res0) = some 8 := by
  decide +kernel

/-- UB-4's state. -/
def uplink4 : State :=
  { stateAt 0 (fun g => { g with
      devAddr := 0x26011BDA, fcnt := 0x00010003, src := 0x40, aux0 := 0x01120040, aux1 := 0xFF }) with
    ram := ramAt 0x40 [2, 3, 0x41, 0x42] }

/-- UB-4: MHDR to FPort, and RES0. -/
theorem test_build_uplink :
    (uplinkMsg .r10 2 uplink4).take 11 = [0x40, 0xda, 0x1b, 0x01, 0x26, 0x02, 0x03, 0x00, 0x02, 0x03, 0x01] ∧
    after (exec (.buildUplink .r10 2) uplink4) (fun t => (t.regs.res0, t.regs.err)) = some (17, .ok) := by decide +kernel

/-- UB-7 to UB-11. -/
theorem test_build_uplink_checks :
    firstFailure (checks (.buildUplink .r10 5) (stateAt 0 fun g => { g with aux0 := 0x40, aux1 := 0xFF })) = some .config ∧
    firstFailure (checks (.buildUplink .r10 1) (stateAt 0 fun g => { g with aux0 := 0x00110040, aux1 := 0xFF })) =
      some .config ∧
    firstFailure (checks (.buildUplink .r10 5) (stateAt 0 fun g => { g with aux0 := 0x01108040, aux1 := 12 })) =
      some .capacity ∧
    firstFailure (checks (.buildUplink .r10 5) (stateAt 0 fun g => { g with aux0 := 0x01108040, aux1 := 13 })) = none ∧
    firstFailure (checks (.buildUplink .r10 5) (stateAt 0 fun g => { g with aux0 := 0x01108040, dst := 495 })) =
      some .bounds := by decide +kernel

/-- A state whose frame stands at 0x100, on the 1.0 NwkSKey. -/
def parsing (f : Bytes) (g : Regs → Regs) : State :=
  withKey 4 0x95575e7d1d1ed6791138f9257a767305
    { stateAt 0 (fun r => g { r with devAddr := 0x26011BDA, src := 0x100, dst := 0x180 }) with ram := ramAt 0x100 f }

/-- DN-3's frame. -/
def frame3 : Bytes := [0x60, 0xda, 0x1b, 0x01, 0x26, 0x00, 0x04, 0x00, 0x3a, 0x96, 0x5d, 0x54]

/-- DN-3's MIC. -/
theorem test_downlink_mic :
    dnMic .r10 (downlinkAt 12 (parsing frame3 id)) (parsing frame3 id) = [0x3a, 0x96, 0x5d, 0x54] := by decide +kernel

/-- DN-3: the checks pass, and what is committed. -/
theorem test_parse_downlink :
    parseDownlinkCommand .r10 12 (parsing frame3 id) =
      .ok (setDownlinkResults .r10 (downlinkAt 12 (parsing frame3 id)) (parsing frame3 id)
        (memWrite (commitCounter .nf 4 (parsing frame3 id)) 0x180 [])) ∧
    (fun t : State => ((t.regs.nfCntDn, t.regs.dnValid), (t.regs.res0, t.regs.res1, t.regs.res2, t.regs.res3)))
      (setDownlinkResults .r10 (downlinkAt 12 (parsing frame3 id)) (parsing frame3 id)
        (memWrite (commitCounter .nf 4 (parsing frame3 id)) 0x180 [])) = ((4, 1), (4, 0x60, 0, 0x26011BDA)) := by
  have h1 : dnContext .r10 (downlinkAt 12 (parsing frame3 id)) (parsing frame3 id) = .nf := by decide +kernel
  have h2 : dnCounter .r10 (downlinkAt 12 (parsing frame3 id)) (parsing frame3 id) = 4 := by decide +kernel
  have h3 : dstOff (parsing frame3 id) = 0x180 := by decide +kernel
  have h4 : dnFOpts .r10 (downlinkAt 12 (parsing frame3 id)) (parsing frame3 id) ++
    dnPayload .r10 (downlinkAt 12 (parsing frame3 id)) (parsing frame3 id) = [] := by decide +kernel
  refine ⟨?_, by decide +kernel⟩
  simp only [parseDownlinkCommand, test_downlink_mic, h1, h2, h3, h4]
  rw [if_neg (by decide +kernel), if_neg (by decide +kernel), if_neg (by decide +kernel), if_neg (by decide +kernel),
    if_neg (by decide +kernel), if_neg (by decide +kernel), if_neg (by decide +kernel), if_neg (by decide +kernel)]

/-- DN-6 to DN-9, DN-15, DN-19, DN-20, in R305's order. -/
theorem test_parse_downlink_checks :
    firstFailure (checks (.parseDownlink .r10 12) (parsing frame3 fun g => { g with aux0 := 5 })) = some .config ∧
    firstFailure (checks (.parseDownlink .r10 15) (parsing frame3 fun g => { g with src := 0x1F8 })) = some .bounds ∧
    firstFailure (checks (.parseDownlink .r10 11) (parsing frame3 id)) = some .malformed ∧
    firstFailure (checks (.parseDownlink .r10 12) (parsing (frame3.set 5 1) id)) = some .malformed ∧
    firstFailure (checks (.parseDownlink .r10 14) (parsing ((frame3.set 5 1).set 9 0 ++ [0, 0]) id)) = some .malformed ∧
    firstFailure (checks (.parseDownlink .r10 13) (parsing (frame3.set 8 0 ++ [0]) fun g => { g with aux0 := 3 })) =
      some .malformed ∧
    firstFailure (checks (.parseDownlink .r10 12) (parsing (frame3.set 1 0xdb) id)) = some .addr := by decide +kernel

/-- JR-1: the message, and JR-3. -/
theorem test_build_joinreq :
    joinReqMsg (stateAt 0 fun g => { g with
      aux2 := 1, joinEuiLo := 0x05060708, joinEuiHi := 0x01020304, devEuiLo := 0x15161718, devEuiHi := 0x11121314 }) =
      [0, 8, 7, 6, 5, 4, 3, 2, 1, 0x18, 0x17, 0x16, 0x15, 0x14, 0x13, 0x12, 0x11, 1, 0] ∧
    firstFailure (checks (.buildJoinreq .r10) (stateAt 0 fun g => { g with dst := 490 })) = some .bounds ∧
    firstFailure (checks (.buildJoinreq .r11) (stateAt 0 fun g => { g with dst := 489 })) = none := by decide +kernel

/-- JA-6's state: the 1.1 NwkKey and JSIntKey, and the wire frame at 0x40. -/
def joining (f : Bytes) : State :=
  withKey 1 0x0f0e0d0c0b0a09080706050403020100 (withKey 6 0x0db51470ef400248bb7221fab7e9a02b
    { stateAt 0 (fun g => { g with
        src := 0x40, dst := 0x80, aux2 := 1, joinEuiLo := 0x05060708, joinEuiHi := 0x01020304, fcntUp := 7, dnValid := 7 }) with
      ram := ramAt 0x40 f })

/-- JA-6's wire frame. -/
def accept6 : Bytes :=
  0x20 :: beBytes 32 0x8b9e48fef5f21f0431e8b7ae9c50478ec002a1611c6befdf698e194e8bec9428

/-- JA-6's plaintext. -/
def plain6 : Bytes :=
  0x20 :: beBytes 32 0x010000130000da1b01268001184f84e85684b85e84886684586e8400859f3575

/-- JA-6: opening the frame. -/
theorem test_open_join : openJoin (joinKey .r11 (joining accept6)) (memRead (joining accept6) 0x40 33) 33 = plain6 := by
  decide +kernel

/-- JA-6: the MIC over JSIntKey. -/
theorem test_join_mic : joinAccMic .r11 (joining accept6) plain6 33 = [0x85, 0x9f, 0x35, 0x75] := by decide +kernel

/-- JA-6: the checks pass, and what is committed. -/
theorem test_parse_joinacc :
    parseJoinaccCommand .r11 33 (joining accept6) = .ok (commitJoin plain6 33 (joining accept6)) ∧
    (fun t : State => ((t.regs.lastJn, t.regs.devAddr, t.regs.fcntUp), (t.regs.dnValid, t.regs.res1, t.regs.res3)))
      (commitJoin plain6 33 (joining accept6)) = ((0x80000001, 0x26011BDA, 0), (4, 0x13, 0x00010180)) := by
  have hs : srcOff (joining accept6) = 0x40 := by decide +kernel
  refine ⟨?_, by decide +kernel⟩
  simp only [parseJoinaccCommand, hs, test_open_join, test_join_mic]
  rw [if_neg (by decide +kernel), if_neg (by decide +kernel), if_neg (by decide +kernel), if_neg (by decide +kernel),
    if_neg (by decide +kernel), if_neg (by decide +kernel)]

/-- JA-9, JA-10, and the bounds. -/
theorem test_parse_joinacc_checks :
    firstFailure (checks (.parseJoinacc .r11 18) (joining accept6)) = some .malformed ∧
    firstFailure (checks (.parseJoinacc .r10 17) (attempt 200 .awaitingRx1 .none .launch)) = some .busy ∧
    firstFailure (checks (.parseJoinacc .r10 33) (stateAt 0 fun g => { g with dst := 480 })) = some .bounds := by
  decide +kernel

/-- IN-1, IN-3, IN-6. -/
theorem test_fcnt_infer :
    after (exec .fcntInfer (stateAt 0 fun g => { g with fcnt := 0x00010005, aux0 := 4 })) (fun t => t.regs.res0) =
      some 0x00020004 ∧
    after (exec .fcntInfer (stateAt 0 fun g => { g with fcnt := 0x00010005, aux0 := 5 })) (fun t => t.regs.res0) =
      some 0x00010005 ∧
    after (exec .fcntInfer (stateAt 0 fun g => { g with fcnt := 0xFFFFFFF0, aux0 := 1 })) (fun t => t.regs.res0) =
      some 1 := by decide +kernel

/-- CS-1's data with a trailer. -/
def summed (trailer : Bytes) : State :=
  { stateAt 0 (fun g => { g with aux3 := 5 }) with ram := ramAt 0 ([1, 2, 3, 4, 5] ++ trailer) }

/-- CS-1, CS-2, CS-4. -/
theorem test_checksum :
    after (exec (.checksum false true) (summed [])) (fun t => (t.regs.res0, memRead t 5 2)) = some (0x0607, [7, 6]) ∧
    after (exec (.checksum true false) (summed [7, 6])) (fun t => (t.regs.err, t.regs.res0)) = some (.ok, 0x0607) ∧
    after (exec (.checksum true false) (summed [7, 7])) (fun t => (t.regs.err, t.regs.res0)) = some (.checksum, 0) := by
  decide +kernel

/-- CS-5, CS-7, CS-8. -/
theorem test_checksum_checks :
    firstFailure (checks (.checksum true true) base) = some .config ∧
    firstFailure (checks (.checksum false true) (stateAt 0 fun g => { g with src := 510, aux3 := 1 })) = some .bounds ∧
    firstFailure (checks (.checksum false true) (stateAt 0 fun g => { g with src := 510 })) = none := by decide +kernel

/-- R235's example. -/
theorem test_dc_check :
    after (exec (.dcCheck false) (stateAt 14999 fun g => { g with schedCtrl := 4, dcMsph := 36000, lastToa := 100, lastEnd := 5000 }))
      (fun t => (t.regs.res0, t.regs.res1, t.regs.res2)) = some (1, 10000, 1) ∧
    after (exec (.dcCheck true) (stateAt 14999 fun g => { g with schedCtrl := 4, dcMsph := 36000, lastToa := 100, lastEnd := 5000 }))
      (fun t => (t.regs.res0, t.regs.res2)) = some (1, 0) ∧
    after (exec (.dcCheck false) (stateAt 15000 fun g => { g with schedCtrl := 4, dcMsph := 36000, lastToa := 100, lastEnd := 5000 }))
      (fun t => (t.regs.res0, t.regs.res2)) = some (0, 0) ∧
    after (exec (.dcCheck false) (stateAt 0 fun g => { g with schedCtrl := 4 })) (fun t => t.regs.err) = some .config ∧
    after (exec (.dcCheck false) (stateAt 0 fun g => { g with res1 := 9 })) (fun t => (t.regs.err, t.regs.res1)) =
      some (.ok, 0) := by decide +kernel

/-- A state that may send one byte, with SCHED_CTRL = `c` and CSMA_CFG = `k` (SC-1, SC-7). -/
def sending (c k : Word) : State :=
  { stateAt 100 (fun g => { g with schedCtrl := c, csmaCfg := k, rxBuf := 0x100, txBuf := 0x10000, dcMsph := 36000 }) with
    ram := ramAt 0 [0x40] }

/-- SC-1, SC-7, SC-8: where an accepted SEND leaves the scheduler, for every way it can start. -/
theorem test_send_starts :
    after (exec (.send false false) (sending 0 0)) (fun t => (t.sched.fsm, t.radioPending, schedStateWord t)) =
      some (.transmitting, .tx, 2) ∧
    after (exec (.send false false) (sending 8 0x302)) (fun t => (t.sched.fsm, t.sched.guardPhase, t.radioOut)) =
      some (.transmitGuard, .randBackoff, [.random]) ∧
    after (exec (.send false false) (sending 8 2)) (fun t => (t.sched.guardPhase, t.radioOut)) =
      some (.probe 2, [.cad 0 0]) ∧
    after (exec (.send false false) (sending 8 0)) (fun t => t.sched.fsm) = some .transmitting ∧
    after (exec (.send true true) (sending 0 0)) (fun t => (t.sched.guardPhase, t.radioOut)) =
      some (.randDelay, [.random]) := by decide +kernel

/-- SEND's checks in R256's order; at an elapsed time equal to the interval it is accepted (R232). -/
theorem test_send_checks :
    firstFailure (checks (.send false false) (attempt 200 .transmitting .tx .launch)) = some .busy ∧
    firstFailure (checks (.send false false) (sending 3 0)) = some .config ∧
    firstFailure (checks (.send false false) (stateAt 0 fun g => { g with rxBuf := 0x100 })) = some .config ∧
    firstFailure (checks (.send false true) (stateAt 0 fun g => { g with txBuf := 0x10000, retxCfg := 1 })) = some .config ∧
    firstFailure (checks (.send false false) (stateAt 0 fun g => { g with txBuf := 0x10000, schedCtrl := 4 })) = some .config ∧
    firstFailure (checks (.send false false) (stateAt 0 fun g => { g with txBuf := 0x10000, rxBuf := 258 })) = some .bounds ∧
    firstFailure (checks (.send false false) (stateAt 3937 fun g =>
      { g with txBuf := 0x10000, schedCtrl := 4, dcMsph := 36000, lastToa := 38, lastEnd := 138 })) = some .duty ∧
    firstFailure (checks (.send true false) (stateAt 3937 fun g =>
      { g with txBuf := 0x10000, schedCtrl := 4, dcMsph := 36000, lastToa := 38, lastEnd := 138 })) = none ∧
    firstFailure (checks (.send false false) (stateAt 3938 fun g =>
      { g with txBuf := 0x10000, schedCtrl := 4, dcMsph := 36000, lastToa := 38, lastEnd := 138 })) = none := by
  decide +kernel

/-! ### Single steps of the scheduler and the bus -/

/-- SC-1 at 138, SC-5. -/
theorem test_tx_events :
    after (step (given (attempt 138 .transmitting .tx .launch) (.radio .txDone)))
      (fun t => (t.regs.lastEnd, t.regs.fcntUp, t.sched.fsm, t.sched.tEnd)) = some (138, 1, .awaitingRx1, some 138) ∧
    after (step (given (attempt 138 .transmitting .tx .launch) (.radio .txFail)))
      (fun t => (t.regs.sendResult, t.regs.fcntUp, t.sched.fsm, t.regs.irqStat)) = some (0x00010E00, 0, .idle, 4) := by
  decide +kernel

/-- SC-1 at 1138: U2 opens Rx1 before a waiting clock step; one millisecond earlier the clock steps. -/
theorem test_rx1_opens :
    after (step (given (attempt 1138 .awaitingRx1 .none .launch) .clock)) (fun t => (t.sched.fsm, t.regs.now, t.inputs)) =
      some (.rx1Open, 1138, [.clock]) ∧
    after (step (given (attempt 1137 .awaitingRx1 .none .launch) .clock)) (fun t => (t.sched.fsm, t.regs.now, t.inputs)) =
      some (.awaitingRx1, 1138, []) := by decide +kernel

/-- SC-8 at 2501 and 2502: d = 1000 + (0x1234 mod 2001) = 1658. -/
theorem test_random_delay :
    after (step (given (attempt 2501 .transmitGuard .random .randDelay) (.radio (.random 0x34))))
      (fun t => (t.sched.randAcc, t.radioOut)) = some ([0x34], [.random]) ∧
    after (step (given { attempt 2502 .transmitGuard .random .randDelay with
        sched := { (attempt 2502 .transmitGuard .random .randDelay).sched with randAcc := [0x34] } } (.radio (.random 0x12))))
      (fun t => (t.sched.guardPhase, t.radioPending)) = some (.delay 2502 1658, .none) := by decide +kernel

/-- SC-7 at 101 and at 117: b = 10 mod 4 = 2, K = 4; a busy probe ends the attempt. -/
theorem test_csma :
    after (step (given (attempt 101 .transmitGuard .random .randBackoff) (.radio (.random 0x0A))))
      (fun t => (t.sched.guardPhase, t.radioOut)) = some (.probe 4, [.cad 868100000 0]) ∧
    after (step (given (attempt 117 .transmitGuard .cad (.probe 1)) (.radio .cadBusy)))
      (fun t => (t.regs.sendResult, t.sched.fsm)) = some (0x00010D00, .idle) := by decide +kernel

/-- SC-11: a frame in idle RxC; SC-12: leaving Class C. -/
theorem test_rxc :
    after (step (given (classC (.rx .rxC)) (.radio (.rxDone [0xAB]))))
      (fun t => (t.ram, t.regs.rxBuf, t.regs.rxPend, t.regs.irqStat, schedStateWord t)) =
      some ([(0, 1), (0x100, 0xAB)], 0x00010100, true, 8, 0x10) ∧
    after (step (given (classC (.rx .rxC)) (.host (.write .w32 0x080 0)))) (fun t => (t.radioOut, schedStateWord t)) =
      some ([.standby], 0) := by decide +kernel

/-- R39, R70, R73: the key window's first bytes, the RAM window's byte order, and two bus faults. -/
theorem test_bus :
    after (hostAccess (.write .w32 0x104 0x07060504) base) (fun t => (key t 0).toList.take 8) =
      some [0, 0, 0, 0, 4, 5, 6, 7] ∧
    after (hostAccess (.write .w16 0x3FE 0x0201) base) (fun t => t.ram) = some [(510, 1), (511, 2)] ∧
    after (hostAccess (.read .w16 0x004) base) (fun t => (t.busFault, t.busOut)) = some (true, .error) ∧
    after (hostAccess (.write .w32 0x401 7) base) (fun t => (t.busFault, t.busOut)) = some (true, .error) := by
  decide +kernel

/-! ### Witnesses: for every statement with hypotheses, states and operands that meet them -/

/-- O1. -/
theorem witness_well_formed :
    (Instr.mic 7 .down .r11 true true 255).wellFormed = true ∧ (Instr.aesEnc 0 0).wellFormed = true := by decide

/-- O3: a word with every unread bit set, and another that agrees on the read ones. -/
theorem witness_unread_fields :
    decode 0x00FFFF00 = .ok .nop ∧ 0x00000000#32 &&& fieldsRead .nop = 0x00FFFF00 &&& fieldsRead .nop := by decide

/-- O5, each clause. -/
theorem witness_inputs :
    dueUrgent base = none ∧ base.inputs = [] ∧ dueUrgent (given base .clock) = none ∧
    dueUrgent (given base (.host (.read .w32 0xFFC))) = none ∧ dueUrgent (given base (.radio .txDone)) = none := by
  decide +kernel

/-- O6, at a command of the highest OP with every flag. -/
theorem witness_issue :
    dueUrgent (given base (.host (.write .w32 0x000 0x00006038))) = none ∧
    decode 0x00006038 = .ok (.send true true) := by decide +kernel

/-- O8's second clause. -/
theorem witness_no_command : decode 0x000000FF = .error .undefinedOp := by decide

/-- O24, at LEN 8 and at the last offset, in both byte orders. -/
theorem witness_store_load :
    srcOff base = dstOff base ∧
    (∃ t, exec (.storeLe 8) base = .next (okState t)) ∧
    (∃ t, exec (.storeBe 1) (stateAt 0 fun g => { g with src := 511, dst := 511 }) = .next (okState t)) := by
  have h1 : commandOf (.storeLe 8) base = .ok (memWrite base (dstOff base) (leBytes 8 (valNum base))) := by
    rw [commandOf, storeCommand, if_neg (by decide), if_neg (by decide +kernel)]
  have h2 : commandOf (.storeBe 1) (stateAt 0 fun g => { g with src := 511, dst := 511 }) =
      .ok (memWrite (stateAt 0 fun g => { g with src := 511, dst := 511 }) (dstOff (stateAt 0 fun g => { g with src := 511, dst := 511 }))
        (beBytes 1 (valNum (stateAt 0 fun g => { g with src := 511, dst := 511 })))) := by
    rw [commandOf, storeCommand, if_neg (by decide), if_neg (by decide +kernel)]
  exact ⟨rfl, ⟨_, exec_ok h1⟩, ⟨_, exec_ok h2⟩⟩

/-- O27. -/
theorem witness_built :
    firstFailure (checks (.buildUplink .r10 2) uplink4) = none ∧ ∃ t, exec (.buildUplink .r10 2) uplink4 = .next t :=
  ⟨by decide +kernel, exec_isNext _ _⟩

/-- O29. -/
theorem witness_accepted_downlink :
    srcOff (parsing frame3 id) + 12 ≤ dstOff (parsing frame3 id) ∧
    ∃ t, exec (.parseDownlink .r10 12) (parsing frame3 id) = .next t ∧ t.regs.err = .ok := by
  exact ⟨by decide +kernel, _, exec_ok test_parse_downlink.1, rfl⟩

/-- O32. -/
theorem witness_accepted_join :
    ∃ t, exec (.parseJoinacc .r11 33) (joining accept6) = .next t ∧ t.regs.err = .ok := by
  exact ⟨_, exec_ok test_parse_joinacc.1, rfl⟩

/-- O34, each clause: below the end of the counter space, at it, and at equality. -/
theorem witness_infer :
    bits 0xFFFEFFFF 31 16 < 0xFFFF ∧ (infer 0xFFFEFFFF 0).toNat = 0xFFFF0000 ∧ bits 0xFFFFFFF0 31 16 = 0xFFFF ∧
    1 < bits 0xFFFFFFF0 15 0 ∧ (infer 0xFFFFFFF0 1).toNat = 1 ∧ (infer 0x1234FFFF 0xFFFF).toNat = 0x1234FFFF := by decide

/-- O36, at the first byte of the data and at the last byte of the trailer. -/
theorem witness_one_byte :
    firstFailure (checks (.checksum true false) (summed [7, 6])) = none ∧
    ∀ x ∈ [0, 6], ∀ y, y ≠ x →
      ramByte { summed [7, 6] with ram := (summed [7, 6]).ram.write x 0x99 } y = ramByte (summed [7, 6]) y := by
  refine ⟨by decide +kernel, fun x hx y hy => ?_⟩
  have hlt : x < 512 := by simp at hx; omega
  simp [ramByte, Memory.read_write, hy, hlt, Config.ramSize]

/-- O37. -/
theorem witness_interval : 0 < 36000 ∧ interval 36000 38 = 3800 ∧ interval 7 1 = 514286 := by decide

/-- The invariant of a Class C block at rest, and of one whose RxC is open: O41's and O60's hypotheses. -/
theorem witness_schedInv : SchedInv (classC .none) ∧ SchedInv (classC (.rx .rxC)) ∧ urgentGuard (classC .none) .u6 = true := by
  refine ⟨?_, ?_, by decide +kernel⟩ <;> constructor <;>
    simp [classC, stateAt, State.reset, Sched.reset, Regs.reset, GuardConsistent, applicableClass, ctrlClass, bits, afterTx,
      rxFits, Config.maxFrame, Config.ramSize]

/-- O60. -/
theorem witness_inv : Inv (classC (.rx .rxC)) where
  memory := by decide +kernel
  reserved := fun r => by cases r <;> decide +kernel
  codes := ⟨by decide +kernel, by decide +kernel⟩
  sched := witness_schedInv.2.1

/-- O41, for a step of an attempt. -/
theorem witness_urgent_attempt :
    SchedInv (attempt 1138 .awaitingRx1 .none .launch) ∧
    urgentGuard (attempt 1138 .awaitingRx1 .none .launch) .u2 = true := by
  refine ⟨?_, by decide +kernel⟩
  constructor <;>
    simp [attempt, stateAt, snap0, State.reset, Sched.reset, Regs.reset, GuardConsistent, applicableClass, afterTx,
      SnapshotLegal, rxFits, Config.maxFrame, Config.ramSize]

/-- O42: the first byte, the second, the elapsed delay, and a range of one value. -/
theorem witness_random_delay :
    snap0.rmin ≤ snap0.rmax ∧
    (attempt 2501 .transmitGuard .random .randDelay).sched.snap = some snap0 ∧
    (attempt 2501 .transmitGuard .random .randDelay).sched.randAcc = [] ∧
    { (attempt 2502 .transmitGuard .random .randDelay).sched with randAcc := [0x34] }.randAcc = [0x34] ∧
    1658 ≤ ((attempt 4160 .transmitGuard .none (.delay 2502 1658)).regs.now - 2502).toNat ∧
    0 ≤ ((attempt 2502 .transmitGuard .none (.delay 2502 0)).regs.now - 2502).toNat := by decide +kernel

/-- O43, the draw and the probe. -/
theorem witness_csma :
    (attempt 101 .transmitGuard .random .randBackoff).sched.guardPhase = .randBackoff ∧
    (attempt 101 .transmitGuard .random .randBackoff).radioPending = .random ∧
    (attempt 117 .transmitGuard .cad (.probe 1)).sched.guardPhase = .probe 1 ∧
    (attempt 117 .transmitGuard .cad (.probe 1)).radioPending = .cad ∧
    (attempt 117 .transmitGuard .cad (.probe 1)).sched.snap = some snap0 := by decide +kernel

/-- O44. -/
theorem witness_transmission :
    (attempt 138 .transmitting .tx .launch).sched.fsm = .transmitting ∧
    (attempt 138 .transmitting .tx .launch).radioPending = .tx ∧
    (attempt 138 .transmitting .tx .launch).sched.snap = some snap0 := by decide +kernel

/-- O45, each clause at the instant its delay has elapsed. -/
theorem witness_windows_open :
    (attempt 1138 .awaitingRx1 .none .launch).sched.tEnd = some 138 ∧
    snap0.rx1Delay.toNat = ((attempt 1138 .awaitingRx1 .none .launch).regs.now - 138).toNat ∧
    snap0.rx2Delay.toNat = ((attempt 2138 .awaitingRx2 .none .launch).regs.now - 138).toNat := by decide +kernel

/-- O46: Rx1 and Rx2 open since 1138. The deadline is due 2^32 - 1 ms later for every time-on-air below 2^32 ms, and not
due at 1138 for every time-on-air above 0; the time-on-air is a free parameter. -/
theorem witness_windows_close :
    (attempt 1138 .rx1Open (.rx .rx1) .launch).sched.tOpen = some 1138 ∧
    (attempt 1138 .rx2Open (.rx .rx2) .launch).radioPending = .rx .rx2 ∧
    (Config.toa snap0.rx1Dr snap0.rx1MaxPl < 2 ^ 32 →
      Config.toa snap0.rx1Dr snap0.rx1MaxPl ≤ ((attempt 1137 .rx1Open (.rx .rx1) .launch).regs.now - 1138).toNat) ∧
    (0 < Config.toa snap0.rx2Dr snap0.rx2MaxPl →
      ¬ Config.toa snap0.rx2Dr snap0.rx2MaxPl ≤ ((attempt 1138 .rx2Open (.rx .rx2) .launch).regs.now - 1138).toNat) := by
  refine ⟨rfl, rfl, fun h => ?_, fun h => ?_⟩
  · have e : ((attempt 1137 .rx1Open (.rx .rx1) .launch).regs.now - 1138).toNat = 2 ^ 32 - 1 := by decide +kernel
    omega
  · have e : ((attempt 1138 .rx2Open (.rx .rx2) .launch).regs.now - 1138).toNat = 0 := by decide +kernel
    omega

/-- O47: RxC in an attempt's gap, with the longest frame and the last offset that holds one. -/
theorem witness_attempt_receives :
    dueUrgent (attempt 600 .awaitingRx1 (.rx .rxC) .launch) = none ∧
    requestInPhase (.rx .rxC) .awaitingRx1 = true ∧ requestInPhase (.rx .rx1) .rx1Open = true ∧
    requestInPhase (.rx .rx2) .rx2Open = true ∧ snap0.rxOff + 255 ≤ 512 ∧ (zeros 255).length = 255 := by decide +kernel

/-- O48, each clause. -/
theorem witness_rxc :
    (classC .none).sched.fsm = .idle ∧ bits (classC .none).regs.schedCtrl 1 0 = 2 ∧ (classC .none).regs.rxPend = false ∧
    bits (classC .none).regs.rxBuf 8 0 + 255 ≤ 512 ∧ bits 0x101 8 0 + 255 = 512 ∧
    ((attempt 1137 .awaitingRx1 .none .launch).regs.now - 138).toNat < { snap0 with cls := 2 }.rx1Delay.toNat ∧
    ((attempt 2137 .awaitingRx2 .none .launch).regs.now - 138).toNat < { snap0 with cls := 2 }.rx2Delay.toNat ∧
    dueUrgent (classC (.rx .rxC)) = none ∧ (classC (.rx .rxC)).sched.rxcOff + 255 ≤ 512 ∧
    dueUrgent (attempt 600 .awaitingRx2 (.rx .rxC) .launch) = none ∧
    (attempt 600 .awaitingRx2 (.rx .rxC) .launch).sched.snap.isSome = true := by decide +kernel

/-- O49: nothing pending, and a request that the event does not answer. -/
theorem witness_unmatched :
    dueUrgent (given base (.radio .cadClear)) = none ∧ base.radioPending ≠ .cad ∧
    dueUrgent (given (attempt 138 .transmitting .tx .launch) (.radio .rxFail)) = none ∧
    (∀ w, (attempt 138 .transmitting .tx .launch).radioPending ≠ .rx w) := by
  refine ⟨by decide +kernel, by decide +kernel, by decide +kernel, fun w => ?_⟩
  simp [attempt]

/-- O50: both sides of its condition at the edges of the regions, and the reserved ranges at theirs. -/
theorem witness_bus_faults :
    accessAllowed .w32 0x3FE = false ∧ accessAllowed .w8 0x0FF = false ∧ accessAllowed .w32 0x0FC = true ∧
    accessAllowed .w8 0x100 = true ∧ accessAllowed .w16 0x3FE = true ∧ accessAllowed .w8 0xFFF = true ∧
    (∀ a ∈ [0x070, 0x07C, 0x0D4, 0x0FC], accessAllowed .w32 a = true ∧ regAt a = none) ∧
    (∀ a ∈ [0x180, 0x1FF, 0x400, 0xFFF], accessAllowed .w8 a = true ∧ regionOf a = .reserved) := by decide

/-- O51: its first and its last row, a row with no RW bits, and a locked one while idle. -/
theorem witness_registers :
    regAt 0x008 = some .irqEn ∧ regAt 0x0D0 = some .guardMs ∧ regAt 0x030 = some .res0 ∧ writeMask .res0 = 0 ∧
    regAt 0x090 = some .fcntUp ∧ base.sched.fsm = .idle := by
  decide +kernel

/-- O52: a busy state, both sides of the Class C clause, and a word that is not SOFT_RESET. -/
theorem witness_special_registers :
    (attempt 200 .transmitting .tx .launch).sched.fsm ≠ .idle ∧ bits 0x1 1 0 ≠ 2 ∧ bits 0x6 1 0 = 2 ∧
    (classC (.rx .rxC)).radioPending = .rx .rxC ∧ decode 0x00000001 ≠ .ok .softReset := by decide +kernel

/-- O55: both cases of the applicable class, at the first and the last FSM number (R51, R280). -/
theorem witness_status :
    ((classC .none).sched.fsm = .idle ∧ bits (classC .none).regs.schedCtrl 1 0 = 2 ∧
      schedStateWord (classC .none) = 0x10) ∧
    ((attempt 200 .rx2Open (.rx .rx2) .launch).sched.fsm ≠ .idle ∧
      (attempt 200 .rx2Open (.rx .rx2) .launch).sched.snap = some snap0 ∧
      schedStateWord (attempt 200 .rx2Open (.rx .rx2) .launch) = 0x06 ∧
      statusWord (attempt 200 .rx2Open (.rx .rx2) .launch) = 0x100) ∧
    statusWord (classC (.rx .rxC)) = 0x400 := by decide +kernel

/-- O53 and O54, at the first and the last access of each window. -/
theorem witness_windows :
    (∀ w ∈ [Width.w8, .w16, .w32], 0x100 % widthBytes w = 0 ∧ (0x180 - widthBytes w) % widthBytes w = 0 ∧
      0x100 ≤ 0x180 - widthBytes w ∧ 0x180 - widthBytes w < 0x180) ∧
    (∀ w ∈ [Width.w8, .w16, .w32], 0x200 % widthBytes w = 0 ∧ (0x400 - widthBytes w) % widthBytes w = 0 ∧
      0x200 ≤ 0x400 - widthBytes w ∧ 0x400 - widthBytes w < 0x400) := by decide

/-- O56. -/
theorem witness_frames (i : Instr) (s : State) : ∃ t, exec i s = .next t := exec_isNext i s

/-- O57: a radio event, and an urgent step before a waiting host access. -/
theorem witness_scheduler_step :
    (∃ t, step (given (attempt 138 .transmitting .tx .launch) (.radio .txDone)) = .next t) ∧
    dueUrgent (given (classC .none) (.host (.read .w32 0))) ≠ none := by
  refine ⟨?_, by decide +kernel⟩
  have h := test_tx_events.1
  revert h
  cases step (given (attempt 138 .transmitting .tx .launch) (.radio .txDone)) with
  | next t => exact fun _ => ⟨t, rfl⟩
  | fault f => intro h; cases h
  | refused r => intro h; cases h

/-- O58: steps that move NOW, and FCNTUP by a host write and by WIPE. -/
theorem witness_counters :
    after (step base) (fun t => t.regs.now) = some 1 ∧
    after (step (given base (.host (.write .w32 0x090 5)))) (fun t => t.regs.fcntUp) = some 5 ∧
    after (step (given (stateAt 0 fun g => { g with fcntUp := 5 }) (.host (.write .w32 0x000 1)))) (fun t => t.regs.fcntUp) =
      some 0 := by decide +kernel

end Sys2Proof.Tests
end

section
/-! PROOFS of the family 10_state.
Fields of words and the stored registers: what a field write leaves, and
what a register holds after a write (R9, R22, R23). -/

namespace Sys2Proof.Machine

/-! ### Bits and fields of a word -/

theorem bit_eq_one_iff (v : Word) (i : Nat) : bit v i = 1 ↔ v.getLsbD i = true := by
  simp [bit, bits, BitVec.getLsbD, Nat.testBit_eq_decide_div_mod_eq]

theorem bits_eq_extractLsb' (v : Word) (hi lo : Nat) : bits v hi lo = (v.extractLsb' lo (hi + 1 - lo)).toNat := by
  simp [bits, Nat.shiftRight_eq_div_pow]

/-- Every bit of `v` outside the mask is 0. -/
def Within (v m : Word) : Prop := v &&& ~~~ m = 0

theorem Within.or {a b m : Word} (ha : Within a m) (hb : Within b m) : Within (a ||| b) m := by
  unfold Within at *
  rw [BitVec.and_comm, BitVec.and_or_distrib_left, BitVec.and_comm _ a, BitVec.and_comm _ b, ha, hb]
  rfl

theorem Within.and {a m : Word} (b : Word) (ha : Within a m) : Within (a &&& b) m := by
  unfold Within at *
  rw [BitVec.and_assoc, BitVec.and_comm b, ← BitVec.and_assoc, ha]
  exact BitVec.zero_and

theorem within_zero (m : Word) : Within 0 m := BitVec.zero_and

theorem within_allOnes (v : Word) : Within v 0xFFFFFFFF := by
  have h : ~~~ (0xFFFFFFFF : Word) = 0 := by decide
  rw [Within, h]
  exact BitVec.and_zero

/-- A field write leaves only bits that were there or that the field's mask has. -/
theorem Within.fieldWrite {a m k : Word} (v : Word) (ha : Within a m) (hk : Within k m) :
    Within ((a &&& ~~~ k) ||| (v &&& k)) m :=
  (ha.and _).or (BitVec.and_comm v k ▸ hk.and v)

/-- A field write with an empty mask changes nothing. -/
theorem fieldWrite_zero (a v : Word) : (a &&& ~~~ (0 : Word)) ||| (v &&& 0) = a := by
  have hv : v &&& (0 : Word) = 0 := BitVec.and_zero
  have ha : a &&& ~~~ (0 : Word) = a := BitVec.and_allOnes
  rw [hv, ha]
  exact BitVec.or_zero

/-- A field write with a full mask stores the word. -/
theorem fieldWrite_allOnes (a v : Word) : (a &&& ~~~ (0xFFFFFFFF : Word)) ||| (v &&& 0xFFFFFFFF) = v := by
  have hv : v &&& (0xFFFFFFFF : Word) = v := BitVec.and_allOnes
  have ha : a &&& ~~~ (0xFFFFFFFF : Word) = 0 := within_allOnes a
  rw [hv, ha]
  exact BitVec.zero_or

theorem within_of_getLsbD {v m : Word} (h : ∀ i, v.getLsbD i = true → m.getLsbD i = true) : Within v m := by
  apply BitVec.eq_of_getLsbD_eq
  intro i _
  cases hv : v.getLsbD i with
  | false => simp [hv]
  | true => simp [h i hv]

/-- A number below `2 ^ n`, shifted up by `k`, is within a mask that has the `n` bits from `k` up. -/
theorem within_shifted {m : Word} {a n k : Nat} (ha : a < 2 ^ n) (hm : ∀ i, k ≤ i → i < k + n → m.getLsbD i = true) :
    Within (word (2 ^ k * a)) m := by
  refine within_of_getLsbD fun i hi => ?_
  simp only [word, BitVec.getLsbD_ofNat, Nat.testBit_two_pow_mul, Bool.and_eq_true, decide_eq_true_eq] at hi
  obtain ⟨-, hk, hbit⟩ := hi
  have hlt : 2 ^ (i - k) < 2 ^ n := lt_of_le_of_lt (Nat.ge_two_pow_of_testBit hbit) ha
  have := (Nat.pow_lt_pow_iff_right (by decide)).1 hlt
  exact hm i hk (by omega)

/-- A number below `2 ^ n` is within a mask that has the lowest `n` bits. -/
theorem within_word {m : Word} {a n : Nat} (ha : a < 2 ^ n) (hm : ∀ i, i < n → m.getLsbD i = true) : Within (word a) m := by
  have := within_shifted (k := 0) ha fun i _ hi => hm i (by omega)
  rwa [Nat.pow_zero, Nat.one_mul] at this

/-- Two disjoint fields packed by addition. -/
theorem word_add_eq_or {a b k : Nat} (hb : b < 2 ^ k) : word (2 ^ k * a + b) = word (2 ^ k * a) ||| word b := by
  rw [word, Nat.two_pow_add_eq_or_of_lt hb, BitVec.ofNat_or]
  rfl

/-! ### Registers -/

/-- The registers a host reads as words computed from other state (R25, R51). -/
def derivedReg : Reg → Bool
  | .status | .schedState => true
  | _ => false

/-- The word that a stored register holds; the derived ones hold none. -/
def storedWord (r : Reg) (g : Regs) : Word :=
  match r with
  | .status | .schedState => 0
  | .cmd => g.cmd | .irqEn => g.irqEn | .irqStat => g.irqStat | .src => g.src | .dst => g.dst | .devAddr => g.devAddr
  | .fcnt => g.fcnt | .aux0 => g.aux0 | .aux1 => g.aux1 | .aux2 => g.aux2 | .aux3 => g.aux3 | .res0 => g.res0
  | .res1 => g.res1 | .res2 => g.res2 | .res3 => g.res3 | .valLo => g.valLo | .valHi => g.valHi
  | .joinEuiLo => g.joinEuiLo | .joinEuiHi => g.joinEuiHi | .devEuiLo => g.devEuiLo | .devEuiHi => g.devEuiHi
  | .lastJn => g.lastJn | .nfCntDn => g.nfCntDn | .afCntDn => g.afCntDn | .mcfCnt => g.mcfCnt | .dnValid => g.dnValid
  | .mcfCntMax => g.mcfCntMax | .schedCtrl => g.schedCtrl | .dcMsph => g.dcMsph | .lastEnd => g.lastEnd
  | .lastToa => g.lastToa | .fcntUp => g.fcntUp | .csmaCfg => g.csmaCfg | .rx1Delay => g.rx1Delay
  | .rx2Delay => g.rx2Delay | .txBuf => g.txBuf | .txFreq => g.txFreq | .txDr => g.txDr | .rx1Freq => g.rx1Freq
  | .rx1Dr => g.rx1Dr | .rx2Freq => g.rx2Freq | .rx2Dr => g.rx2Dr | .rxBuf => g.rxBuf | .sendResult => g.sendResult
  | .now => g.now | .retxCfg => g.retxCfg | .guardMs => g.guardMs

/-- A stored register reads as the word it holds. -/
theorem readReg_eq_storedWord (s : State) {r : Reg} (hr : derivedReg r = false) : readReg s r = storedWord r s.regs := by
  cases r <;> cases hr <;> rfl

/-- The stored registers as one list in the order of `Reg`, with 0 in the places of the derived ones. -/
def storedWords (g : Regs) : List Word :=
  [ g.cmd, 0, g.irqEn, g.irqStat, g.src, g.dst, g.devAddr, g.fcnt, g.aux0, g.aux1, g.aux2, g.aux3, g.res0, g.res1
  , g.res2, g.res3, g.valLo, g.valHi, g.joinEuiLo, g.joinEuiHi, g.devEuiLo, g.devEuiHi, g.lastJn, g.nfCntDn
  , g.afCntDn, g.mcfCnt, g.dnValid, g.mcfCntMax, g.schedCtrl, g.dcMsph, g.lastEnd, g.lastToa, g.fcntUp, g.csmaCfg
  , g.rx1Delay, g.rx2Delay, g.txBuf, g.txFreq, g.txDr, g.rx1Freq, g.rx1Dr, g.rx2Freq, g.rx2Dr, g.rxBuf, 0
  , g.sendResult, g.now, g.retxCfg, g.guardMs ]

theorem storedWords_getElem? (g : Regs) {r : Reg} (hr : derivedReg r = false) :
    (storedWords g)[r.ctorIdx]? = some (storedWord r g) := by
  cases r <;> cases hr <;> rfl

theorem storedWords_putReg (v : Word) (g : Regs) {r : Reg} (hr : derivedReg r = false) :
    storedWords (putReg r v g) = (storedWords g).set r.ctorIdx v := by
  cases r <;> cases hr <;> rfl

/-- What a register holds after another or the same one was stored. -/
theorem storedWord_putReg (v : Word) (g : Regs) {r q : Reg} (hr : derivedReg r = false) (hq : derivedReg q = false) :
    storedWord q (putReg r v g) = if q = r then v else storedWord q g := by
  have hget := storedWords_getElem? (putReg r v g) hq
  have hold := storedWords_getElem? g hq
  rw [storedWords_putReg v g hr] at hget
  by_cases h : q = r
  · subst h
    have hlen := (List.getElem?_eq_some_iff.1 hold).1
    rw [List.getElem?_set_self hlen] at hget
    rw [if_pos rfl, ← Option.some.inj hget]
  · have hidx : r.ctorIdx ≠ q.ctorIdx := fun he => h (by rw [← Reg.ofNat_ctorIdx q, ← he, Reg.ofNat_ctorIdx])
    rw [List.getElem?_set_ne hidx, hold] at hget
    rw [if_neg h, ← Option.some.inj hget]

@[simp] theorem putReg_err (r : Reg) (v : Word) (g : Regs) : (putReg r v g).err = g.err := by cases r <;> rfl
@[simp] theorem putReg_rxPend (r : Reg) (v : Word) (g : Regs) : (putReg r v g).rxPend = g.rxPend := by cases r <;> rfl

/-- A field write: the new RW bits in the register written, every other register as before (R22). -/
theorem storedWord_writeFields (s : State) (v : Word) {r q : Reg} (hr : derivedReg r = false)
    (hq : derivedReg q = false) :
    storedWord q (writeFields r v s).regs =
      if q = r then (storedWord r s.regs &&& ~~~ writeMask r) ||| (v &&& writeMask r) else storedWord q s.regs := by
  rw [← readReg_eq_storedWord s hr]
  exact storedWord_putReg _ _ hr hq

/-! ### The register map -/

theorem mem_regMap_of_regAt {off : Nat} {r : Reg} (h : regAt off = some r) : (off, r) ∈ regMap := by
  obtain ⟨⟨a, q⟩, hf, rfl⟩ := Option.map_eq_some_iff.1 h
  have ha : a = off := by simpa using List.find?_some hf
  exact ha ▸ List.mem_of_find?_eq_some hf

/-- A listed offset is a word of the register region. -/
theorem regAt_word {off : Nat} {r : Reg} (h : regAt off = some r) : off % 4 = 0 ∧ off < 0x100 := by
  have hall : ∀ p ∈ regMap, p.1 % 4 = 0 ∧ p.1 < 0x100 := by decide
  exact hall _ (mem_regMap_of_regAt h)

/-- No register stands at two offsets. -/
theorem regAt_injective {a b : Nat} {r : Reg} (ha : regAt a = some r) (hb : regAt b = some r) : a = b := by
  have hnd : (regMap.map (·.2)).Nodup := by decide
  have := List.inj_on_of_nodup_map hnd (mem_regMap_of_regAt ha) (mem_regMap_of_regAt hb) rfl
  exact congrArg Prod.fst this

/-- The offsets below 0x100 that the map does not list (R22, log 7). -/
theorem regAt_unlisted {off : Nat} (h : (0x070 ≤ off ∧ off < 0x080) ∨ (0x0D4 ≤ off ∧ off < 0x100)) : regAt off = none := by
  cases hr : regAt off with
  | none => rfl
  | some r =>
    have hall : ∀ p ∈ regMap, ¬ ((0x070 ≤ p.1 ∧ p.1 < 0x080) ∨ (0x0D4 ≤ p.1 ∧ p.1 < 0x100)) := by decide
    exact absurd h (hall _ (mem_regMap_of_regAt hr))

end Sys2Proof.Machine
end

section
/-! PROOFS of the family 10_state.
The host bus: one equation per region, what an access can do at all, and
the register writes (R22-R27, R70-R74, R281). -/

namespace Sys2Proof.Machine

/-! ### Host accesses (R70-R74) -/

theorem accessAllowed_iff (w : Width) (off : Nat) :
    accessAllowed w off = true ↔ off % widthBytes w = 0 ∧ (off < 0x100 → w = .w32) := by
  have hreg : regionOf off = .registers ↔ off < 0x100 := by
    unfold regionOf
    split_ifs <;> simp_all
  rw [accessAllowed, Bool.and_eq_true, Bool.or_eq_true, decide_eq_true_iff, decide_eq_true_iff, decide_eq_true_iff,
    Ne, hreg, imp_iff_not_or]

theorem regionOf_registers {off : Nat} (h : off < 0x100) : regionOf off = .registers := if_pos h

theorem regionOf_keys {off : Nat} (h : 0x100 ≤ off) (h' : off < 0x180) : regionOf off = .keys := by
  rw [regionOf, if_neg (by omega), if_pos h']

theorem regionOf_ram {off : Nat} (h : 0x200 ≤ off) (h' : off < 0x400) : regionOf off = .ram := by
  rw [regionOf, if_neg (by omega), if_neg (by omega), if_pos ⟨h, h'⟩]

theorem regionOf_reserved {off : Nat} (h : (0x180 ≤ off ∧ off < 0x200) ∨ 0x400 ≤ off) : regionOf off = .reserved := by
  rw [regionOf, if_neg (by omega), if_neg (by omega), if_neg (by omega)]

theorem hostAccess_read_fault {w : Width} {off : BitVec 12} (h : accessAllowed w off.toNat = false) (s : State) :
    hostAccess (.read w off) s = .next { s with busFault := true, busOut := .error } := by
  simp [hostAccess, hostRead, h, busFault]

theorem hostAccess_write_fault {w : Width} {off : BitVec 12} (h : accessAllowed w off.toNat = false) (v : Word)
    (s : State) : hostAccess (.write w off v) s = .next { s with busFault := true, busOut := .error } := by
  simp [hostAccess, hostWrite, h, busFault]

theorem hostAccess_read {w : Width} {off : BitVec 12} (h : accessAllowed w off.toNat = true) (s : State) :
    hostAccess (.read w off) s = .next { s with busOut := .data (readData w off.toNat s) } := by
  simp [hostAccess, hostRead, h]

theorem hostAccess_write {w : Width} {off : BitVec 12} (h : accessAllowed w off.toNat = true) (v : Word) (s : State) :
    hostAccess (.write w off v) s = performWrite w off.toNat v { s with busOut := .done } := by
  simp [hostAccess, hostWrite, h]

theorem performWrite_register {off : Nat} {r : Reg} (hr : regAt off = some r) (hc : r ≠ .cmd) (w : Width) (v : Word)
    (s : State) : performWrite w off v s = .next (writeReg r v s) := by
  unfold performWrite
  rw [regionOf_registers (regAt_word hr).2, hr]
  cases r <;> first | rfl | exact absurd rfl hc

theorem performWrite_unlisted {off : Nat} (h : off < 0x100) (hr : regAt off = none) (w : Width) (v : Word)
    (s : State) : performWrite w off v s = .next s := by
  unfold performWrite
  rw [regionOf_registers h, hr]

theorem performWrite_keys {off : Nat} (h : 0x100 ≤ off) (h' : off < 0x180) (w : Width) (v : Word) (s : State) :
    performWrite w off v s = .next (writeKeyBytes (off - 0x100) (leBytes (widthBytes w) v.toNat) s) := by
  rw [performWrite, regionOf_keys h h']

theorem performWrite_ram {off : Nat} (h : 0x200 ≤ off) (h' : off < 0x400) (w : Width) (v : Word) (s : State) :
    performWrite w off v s = .next (memWrite s (off - 0x200) (leBytes (widthBytes w) v.toNat)) := by
  rw [performWrite, regionOf_ram h h']

theorem performWrite_reserved {off : Nat} (h : (0x180 ≤ off ∧ off < 0x200) ∨ 0x400 ≤ off) (w : Width) (v : Word)
    (s : State) : performWrite w off v s = .next s := by
  rw [performWrite, regionOf_reserved h]

theorem readData_registers {off : Nat} (h : off < 0x100) (w : Width) (s : State) :
    readData w off s = ((regAt off).map (readReg s)).getD 0 := by
  rw [readData, regionOf_registers h]

theorem accessAllowed_of_regAt {off : Nat} {r : Reg} (hr : regAt off = some r) : accessAllowed .w32 off = true :=
  (accessAllowed_iff _ _).2 ⟨(regAt_word hr).1, fun _ => rfl⟩

/-- A 32-bit read of a listed register (R22). -/
theorem hostAccess_read_register {off : BitVec 12} {r : Reg} (hr : regAt off.toNat = some r) (s : State) :
    hostAccess (.read .w32 off) s = .next { s with busOut := .data (readReg s r) } := by
  rw [hostAccess_read (accessAllowed_of_regAt hr), readData_registers (regAt_word hr).2, hr]
  rfl

/-- A 32-bit write of a listed register other than CMD (R22). -/
theorem hostAccess_write_register {off : BitVec 12} {r : Reg} (hr : regAt off.toNat = some r) (hc : r ≠ .cmd) (v : Word)
    (s : State) : hostAccess (.write .w32 off v) s = .next (writeReg r v { s with busOut := .done }) := by
  rw [hostAccess_write (accessAllowed_of_regAt hr), performWrite_register hr hc]

/-- What a write that the window allows does to `s`, by where it goes (R70). -/
inductive WriteEffect (s : State) : Access → Host.Outcome State Fault Refusal → Prop
  | register (off : BitVec 12) (v : Word) (r : Reg) (hr : regAt off.toNat = some r) (hc : r ≠ .cmd) :
      WriteEffect s (.write .w32 off v) (.next (writeReg r v s))
  | command (v : Word) : WriteEffect s (.write .w32 0x000 v) (issueCommand v s)
  | keys (w : Width) (off : BitVec 12) (v : Word) (k : Nat) (bs : Bytes) :
      WriteEffect s (.write w off v) (.next (writeKeyBytes k bs s))
  | ram (w : Width) (off : BitVec 12) (v : Word) (a : Nat) (bs : Bytes) :
      WriteEffect s (.write w off v) (.next (memWrite s a bs))
  | ignored (w : Width) (off : BitVec 12) (v : Word) : WriteEffect s (.write w off v) (.next s)

/-- What a host access does: it faults, reads, or writes (R74). -/
inductive HostEffect (s : State) : Access → Host.Outcome State Fault Refusal → Prop
  | fault (a : Access) : HostEffect s a (.next { s with busFault := true, busOut := .error })
  | read (w : Width) (off : BitVec 12) (d : Word) : HostEffect s (.read w off) (.next { s with busOut := .data d })
  | write (a : Access) (o : Host.Outcome State Fault Refusal) (h : WriteEffect { s with busOut := .done } a o) :
      HostEffect s a o

theorem performWrite_effect {w : Width} {off : BitVec 12} (h : accessAllowed w off.toNat = true) (v : Word)
    (s : State) : WriteEffect s (.write w off v) (performWrite w off.toNat v s) := by
  rcases lt_or_ge off.toNat 0x100 with hreg | hreg
  · obtain rfl : w = .w32 := ((accessAllowed_iff _ _).1 h).2 hreg
    cases hr : regAt off.toNat with
    | none => rw [performWrite_unlisted hreg hr]; exact .ignored _ _ _
    | some r =>
      by_cases hc : r = .cmd
      · subst hc
        obtain rfl : off = 0x000 := BitVec.eq_of_toNat_eq (regAt_injective hr (b := 0) rfl)
        exact .command v
      · rw [performWrite_register hr hc]; exact .register off v r hr hc
  rcases lt_or_ge off.toNat 0x180 with hkey | hkey
  · rw [performWrite_keys hreg hkey]; exact .keys _ _ _ _ _
  by_cases hram : 0x200 ≤ off.toNat ∧ off.toNat < 0x400
  · rw [performWrite_ram hram.1 hram.2]; exact .ram _ _ _ _ _
  · rw [performWrite_reserved (by omega)]; exact .ignored _ _ _

theorem hostAccess_effect (a : Access) (s : State) : HostEffect s a (hostAccess a s) := by
  cases a with
  | read w off =>
    cases h : accessAllowed w off.toNat with
    | true => rw [hostAccess_read h]; exact .read _ _ _
    | false => rw [hostAccess_read_fault h]; exact .fault _
  | write w off v =>
    cases h : accessAllowed w off.toNat with
    | true => rw [hostAccess_write h]; exact .write _ _ (performWrite_effect h v _)
    | false => rw [hostAccess_write_fault h]; exact .fault _

/-! ### Register writes (R22, R25, R27, R44, R281) -/

/-- A register write is the write of its RW bits, but for the three registers with side effects and the locked ones. -/
theorem writeReg_plain {r : Reg} (hs : r ≠ .status) (hi : r ≠ .irqStat) (hc : r ≠ .schedCtrl) (v : Word) (s : State) :
    writeReg r v s = if busyLocked r && sbusy s then s else writeFields r v s := by
  cases r <;> first | rfl | contradiction

/-- Writing STATUS clears RXPEND where bit 9 is 1 (R25). -/
theorem writeReg_status (v : Word) (s : State) :
    writeReg .status v s = { s with regs := { s.regs with rxPend := s.regs.rxPend && bit v 9 = 0 } } := by
  have hbit : bit v 9 < 2 := Nat.mod_lt _ (by decide)
  show (if bitSet v 9 then _ else _) = _
  rw [bitSet]
  obtain h | h : bit v 9 = 0 ∨ bit v 9 = 1 := by omega
  · simp [h]
  · simp [h]

/-- A locked register ignores writes while busy (R44, R45). -/
theorem writeReg_locked {r : Reg} (hr : busyLocked r = true) (v : Word) {s : State} (hb : s.sched.fsm ≠ .idle) :
    writeReg r v s = s := by
  have hbusy : sbusy s = true := decide_eq_true hb
  cases r <;> cases hr <;> exact if_pos hbusy

/-- Leaving Class C closes an RxC that is open while Idle, and does nothing else (R281). -/
theorem leaveClassC_eq (s : State) : leaveClassC s =
    if s.sched.fsm = .idle ∧ s.radioPending = .rx .rxC ∧ ctrlClass s ≠ 2 then
      { s with radioPending := .none, radioOut := s.radioOut ++ [.standby] }
    else s := by
  unfold leaveClassC closeRxC
  split_ifs <;> first | rfl | simp_all

@[simp] theorem leaveClassC_regs (s : State) : (leaveClassC s).regs = s.regs := by unfold leaveClassC; split <;> simp
@[simp] theorem leaveClassC_keys (s : State) : (leaveClassC s).keys = s.keys := by unfold leaveClassC; split <;> simp
@[simp] theorem leaveClassC_ram (s : State) : (leaveClassC s).ram = s.ram := by unfold leaveClassC; split <;> simp
@[simp] theorem leaveClassC_sched (s : State) : (leaveClassC s).sched = s.sched := by
  unfold leaveClassC; split <;> simp
@[simp] theorem leaveClassC_busFault (s : State) : (leaveClassC s).busFault = s.busFault := by
  unfold leaveClassC; split <;> simp
@[simp] theorem leaveClassC_inputs (s : State) : (leaveClassC s).inputs = s.inputs := by
  unfold leaveClassC; split <;> simp
@[simp] theorem leaveClassC_busOut (s : State) : (leaveClassC s).busOut = s.busOut := by
  unfold leaveClassC; split <;> simp

/-- What no register write touches. -/
theorem writeReg_frame (r : Reg) (v : Word) (s : State) :
    (writeReg r v s).keys = s.keys ∧ (writeReg r v s).ram = s.ram ∧ (writeReg r v s).sched = s.sched ∧
      (writeReg r v s).busFault = s.busFault ∧ (writeReg r v s).inputs = s.inputs ∧
      (writeReg r v s).busOut = s.busOut := by
  by_cases hs : r = .status
  · subst hs; rw [writeReg_status]; exact ⟨rfl, rfl, rfl, rfl, rfl, rfl⟩
  by_cases hi : r = .irqStat
  · subst hi; exact ⟨rfl, rfl, rfl, rfl, rfl, rfl⟩
  by_cases hc : r = .schedCtrl
  · subst hc; simp [writeReg, writeFields]
  rw [writeReg_plain hs hi hc]
  split <;> exact ⟨rfl, rfl, rfl, rfl, rfl, rfl⟩

/-- A register that is not the one written keeps its word under any register write. -/
theorem storedWord_writeReg_ne {r q : Reg} (hq : derivedReg q = false) (hne : q ≠ r) (v : Word) (s : State) :
    storedWord q (writeReg r v s).regs = storedWord q s.regs := by
  have hfields (hr : derivedReg r = false) : storedWord q (writeFields r v s).regs = storedWord q s.regs := by
    rw [storedWord_writeFields s v hr hq, if_neg hne]
  by_cases hs : r = .status
  · subst hs
    rw [writeReg_status]
    rfl
  by_cases hi : r = .irqStat
  · subst hi
    exact (storedWord_putReg _ s.regs rfl hq).trans (if_neg hne)
  by_cases hc : r = .schedCtrl
  · subst hc
    exact (congrArg (storedWord q) (leaveClassC_regs _)).trans (hfields rfl)
  rw [writeReg_plain hs hi hc]
  split
  · rfl
  · cases hd : derivedReg r with
    | false => exact hfields hd
    | true =>
      obtain rfl : r = .schedState := by cases r <;> simp_all [derivedReg]
      rfl

/-! ### The register map: writes, read back and frame -/

/-- The registers a host write changes in their RW bits and in no other way (R23). -/
def plainReg (r : Reg) : Bool := r ∉ [Reg.cmd, .status, .irqStat, .schedCtrl, .schedState]

theorem derivedReg_of_plainReg {r : Reg} (h : plainReg r = true) : derivedReg r = false := by
  cases r <;> cases h <;> rfl

/-- The rows of R23's map with plain writes: offset, stored word and RW bits. -/
def plainRows : List (BitVec 12 × (Regs → Word) × Word) :=
  (regMap.filter fun p => plainReg p.2).map fun p => (BitVec.ofNat 12 p.1, storedWord p.2, writeMask p.2)

theorem exists_reg_of_mem_plainRows {x : BitVec 12 × (Regs → Word) × Word} (h : x ∈ plainRows) :
    ∃ r, regAt x.1.toNat = some r ∧ plainReg r = true ∧ x.2.1 = storedWord r ∧ x.2.2 = writeMask r := by
  have hall : ∀ p ∈ regMap, regAt (BitVec.ofNat 12 p.1).toNat = some p.2 := by decide
  obtain ⟨p, hp, rfl⟩ := List.mem_map.1 h
  obtain ⟨hmem, hplain⟩ := List.mem_filter.1 hp
  exact ⟨p.2, hall p hmem, hplain, rfl, rfl⟩

/-- Only LAST_END, LAST_TOA and FCNTUP are locked while busy (R44, R45). -/
theorem locked_offset {off : BitVec 12} {r : Reg} (hr : regAt off.toNat = some r) (hl : busyLocked r = true) :
    off = 0x088 ∨ off = 0x08C ∨ off = 0x090 := by
  have hoff (a : BitVec 12) (ha : regAt a.toNat = some r) : off = a := BitVec.eq_of_toNat_eq (regAt_injective hr ha)
  cases r <;> cases hl
  · exact .inl (hoff _ rfl)
  · exact .inr (.inl (hoff _ rfl))
  · exact .inr (.inr (hoff _ rfl))

/-- A write of a register with plain writes changes its RW bits; a locked one needs an idle scheduler (R22, R23). -/
theorem hostAccess_write_plain {off : BitVec 12} {r : Reg} (hr : regAt off.toNat = some r) (hp : plainReg r = true)
    {s : State} (hidle : busyLocked r = true → s.sched.fsm = .idle) (v : Word) :
    hostAccess (.write .w32 off v) s = .next { s with regs := (writeFields r v s).regs, busOut := .done } := by
  have hne (q : Reg) (hq : plainReg q = false) : r ≠ q := by rintro rfl; simp [hp] at hq
  rw [hostAccess_write_register hr (hne _ rfl), writeReg_plain (hne _ rfl) (hne _ rfl) (hne _ rfl), if_neg]
  · rfl
  · simpa [sbusy] using hidle

end Sys2Proof.Machine
end

section
/-! PROOFS of the family 10_state.
What a command can do: the codes it raises and the effects it has (R101, R300-R305). -/

namespace Sys2Proof.Machine

/-! ### What commands can do -/

/-- The registers but RES0-RES3 and VAL are those of `g`. -/
def ResultsOnly (g h : Regs) : Prop :=
  h = { g with
    res0 := h.res0, res1 := h.res1, res2 := h.res2, res3 := h.res3, valLo := h.valLo, valHi := h.valHi }

/-- What a command outside session and scheduler can do to `s`: write results, and keys and RAM where `k` and `m` allow
it (R30, R303). -/
structure Computes (k m : Bool) (s u : State) : Prop where
  regs : ResultsOnly s.regs u.regs
  keys : k = false → u.keys = s.keys
  ram : m = false → u.ram = s.ram
  memory : Memory.wf s.ram = true → Memory.wf u.ram = true
  sched : u.sched = s.sched
  radioPending : u.radioPending = s.radioPending
  busFault : u.busFault = s.busFault
  inputs : u.inputs = s.inputs
  busOut : u.busOut = s.busOut
  radioOut : u.radioOut = s.radioOut

namespace Computes

variable {k m : Bool} {s u : State}

theorem refl (k m : Bool) (s : State) : Computes k m s s :=
  ⟨rfl, fun _ => rfl, fun _ => rfl, id, rfl, rfl, rfl, rfl, rfl, rfl⟩

theorem memWrite (h : Computes k true s u) (a : Nat) (bs : Bytes) : Computes k true s (memWrite u a bs) :=
  ⟨h.regs, h.keys, nofun, fun hw => memWrite_wf u a bs (h.memory hw), h.sched, h.radioPending, h.busFault, h.inputs,
    h.busOut, h.radioOut⟩

theorem setKey (h : Computes true m s u) (n : Fin 8) (b : Block) : Computes true m s (setKey u n b) :=
  ⟨h.regs, nofun, h.ram, h.memory, h.sched, h.radioPending, h.busFault, h.inputs, h.busOut, h.radioOut⟩

/-- A later write of results is one more. -/
theorem setResults (h : Computes k m s u) {g : Regs} (hg : ResultsOnly u.regs g) :
    Computes k m s { u with regs := g } :=
  ⟨by rw [ResultsOnly, hg, h.regs], h.keys, h.ram, h.memory, h.sched, h.radioPending, h.busFault, h.inputs, h.busOut,
    h.radioOut⟩

theorem setRes0 (h : Computes k m s u) (v : Nat) : Computes k m s (setRes0 u v) := h.setResults rfl

theorem setVal (h : Computes k m s u) (v : Nat) : Computes k m s (setVal u v) := h.setResults rfl

end Computes

/-- The checks that SEND has passed when it starts an attempt (R256). -/
structure SendAccepted (rdelay : Bool) (s : State) : Prop where
  idle : s.sched.fsm = .idle
  noFrame : s.regs.rxPend = false
  cls : ctrlClass s ≠ 3
  len : txLen s ≠ 0
  delay : rdelay = true → retxMin s ≤ retxMax s
  room : rxFits (rxOff s) = true

/-- The effects a command can have on `s` when its checks pass. -/
def CommandEffect (i : Instr) (s u : State) : Prop :=
  match i with
  | .wipe => s.sched.fsm = .idle ∧ u = wipeState s
  | .softReset => s.sched.fsm = .idle ∧ u = softResetState (closeRxC s)
  | .parseDownlink _ _ => ∃ c v, Computes false true (commitCounter c v s) u
  | .parseJoinacc _ n => s.sched.fsm = .idle ∧ ∃ p, u = commitJoin p n s
  | .send retx rdelay => SendAccepted rdelay s ∧ u = startAttempt (takeSnapshot retx rdelay s) s
  | i => Computes (writesKeys i) (writesRam i) s u

/-- A command's checks and effects: it raises only codes of R305's table, 2 to 12, or its effects meet `P`. -/
def Ends (P : State → Prop) (x : Except Code State) : Prop :=
  match x with
  | .ok u => P u
  | .error c => 2 ≤ codeNumber c ∧ codeNumber c ≤ 12

theorem Ends.ok {P : State → Prop} {u : State} (h : P u) : Ends P (.ok u) := h

/-- One check: the rest may use that it did not fail. -/
theorem Ends.check {P : State → Prop} {c : Prop} [Decidable c] {e : Code} {x : Except Code State}
    (he : 2 ≤ codeNumber e ∧ codeNumber e ≤ 12) (hx : ¬ c → Ends P x) : Ends P (if c then .error e else x) := by
  split
  · exact he
  · exact hx ‹_›

theorem idle_of_not_sbusy {s : State} (h : ¬ sbusy s = true) : s.sched.fsm = .idle := by
  simpa [sbusy] using h

section
variable (s : State)

theorem ecbCommand_ends (f : Block → Block → Block) (ks : Fin 8) (len : Nat) :
    Ends (Computes false true s) (ecbCommand f ks len s) :=
  .check (by decide) fun _ => .check (by decide) fun _ => .ok ((Computes.refl _ _ s).memWrite _ _)

theorem storeCommand_ends (enc : Nat → Nat → Bytes) (len : Nat) :
    Ends (Computes false true s) (storeCommand enc len s) :=
  .check (by decide) fun _ => .check (by decide) fun _ => .ok ((Computes.refl _ _ s).memWrite _ _)

theorem loadCommand_ends (val : Bytes → Nat) (len : Nat) :
    Ends (Computes false false s) (loadCommand val len s) :=
  .check (by decide) fun _ => .check (by decide) fun _ => .ok ((Computes.refl _ _ s).setVal _)

/-- MIC and CHECKSUM write RAM only when they append. -/
theorem computes_append (append : Bool) (a : Nat) (bs : Bytes) (v : Nat) :
    Computes false append s (setRes0 (if append then memWrite s a bs else s) v) := by
  cases append with
  | false => exact (Computes.refl _ _ s).setRes0 v
  | true => exact ((Computes.refl _ _ s).memWrite a bs).setRes0 v

theorem micCommand_ends (ks : Fin 8) (dir : Dir) (rev : Rev) (append verify : Bool) (len : Nat) :
    Ends (Computes false append s) (micCommand ks dir rev append verify len s) :=
  .check (by decide) fun _ => .check (by decide) fun _ => .check (by decide) fun _ => .ok (computes_append s _ _ _ _)

theorem checksumCommand_ends (verify append : Bool) :
    Ends (Computes false append s) (checksumCommand verify append s) :=
  .check (by decide) fun _ => .check (by decide) fun _ => .check (by decide) fun _ => .ok (computes_append s _ _ _ _)

theorem buildUplinkCommand_ends (rev : Rev) (n : Nat) :
    Ends (Computes false true s) (buildUplinkCommand rev n s) :=
  .check (by decide) fun _ => .check (by decide) fun _ => .check (by decide) fun _ => .check (by decide) fun _ =>
    .ok (((Computes.refl _ _ s).memWrite _ _).setRes0 _)

theorem parseDownlinkCommand_ends (rev : Rev) (n : Nat) :
    Ends (CommandEffect (.parseDownlink rev n) s) (parseDownlinkCommand rev n s) :=
  .check (by decide) fun _ => .check (by decide) fun _ => .check (by decide) fun _ => .check (by decide) fun _ =>
    .check (by decide) fun _ => .check (by decide) fun _ => .check (by decide) fun _ => .check (by decide) fun _ =>
      .ok ⟨_, _, ((Computes.refl false true _).memWrite _ _).setResults rfl⟩

theorem parseJoinaccCommand_ends (rev : Rev) (n : Nat) :
    Ends (CommandEffect (.parseJoinacc rev n) s) (parseJoinaccCommand rev n s) :=
  .check (by decide) fun hb => .check (by decide) fun _ => .check (by decide) fun _ => .check (by decide) fun _ =>
    .check (by decide) fun _ => .check (by decide) fun _ => .ok ⟨idle_of_not_sbusy hb, _, rfl⟩

theorem sendCommand_ends (retx rdelay : Bool) :
    Ends (CommandEffect (.send retx rdelay) s) (sendCommand retx rdelay s) := by
  refine .check (by decide) fun hbusy => .check (by decide) fun hcls => .check (by decide) fun hlen =>
    .check (by decide) fun hdelay => .check (by decide) fun _ => .check (by decide) fun hroom =>
      .check (by decide) fun _ => .ok ⟨?_, rfl⟩
  simp only [Bool.or_eq_true, not_or, Bool.and_eq_true, not_and, decide_eq_true_eq, Bool.not_eq_true', Nat.not_lt,
    Bool.not_eq_false] at hbusy hdelay hroom
  exact ⟨idle_of_not_sbusy hbusy.1, Bool.eq_false_iff.2 hbusy.2, hcls, hlen, hdelay, hroom.2⟩

/-- Every command raises a code of R305's table or has the effects `CommandEffect` names. -/
theorem commandOf_ends (i : Instr) : Ends (CommandEffect i s) (commandOf i s) := by
  have hrefl (k m : Bool) := Computes.refl k m s
  cases i with
  | nop => exact hrefl _ _
  | wipe => exact .check (by decide) fun hb => .ok ⟨idle_of_not_sbusy hb, rfl⟩
  | softReset => exact .check (by decide) fun hb => .ok ⟨idle_of_not_sbusy hb, rfl⟩
  | aesEnc ks len => exact ecbCommand_ends s aesEnc ks len
  | aesDec ks len => exact ecbCommand_ends s aesDec ks len
  | cmac ks len => exact .check (by decide) fun _ => .ok ((hrefl _ _).setResults rfl)
  | ctrCrypt ks dir single len =>
    exact .check (by decide) fun _ => .check (by decide) fun _ => .ok ((hrefl _ _).memWrite _ _)
  | mic ks dir rev append verify len => exact micCommand_ends s ks dir rev append verify len
  | kdf ks len => exact .check (by decide) fun _ => .check (by decide) fun _ => .ok ((hrefl _ _).setKey _ _)
  | deriveSession rev =>
    cases rev with
    | r10 => exact .ok (((((hrefl _ _).setKey _ _).setKey _ _).setKey _ _).setKey _ _)
    | r11 => exact .ok (((((hrefl _ _).setKey _ _).setKey _ _).setKey _ _).setKey _ _)
  | deriveJs rev =>
    cases rev with
    | r10 => exact (by decide : 2 ≤ codeNumber .config ∧ codeNumber .config ≤ 12)
    | r11 => exact .ok (((hrefl _ _).setKey _ _).setKey _ _)
  | storeLe len => exact storeCommand_ends s leBytes len
  | storeBe len => exact storeCommand_ends s beBytes len
  | loadLe len => exact loadCommand_ends s leVal len
  | loadBe len => exact loadCommand_ends s beVal len
  | fctrlPack => exact .check (by decide) fun _ => .ok ((hrefl _ _).setRes0 _)
  | fctrlUnpack => exact .ok ((hrefl _ _).setRes0 _)
  | buildUplink rev len => exact buildUplinkCommand_ends s rev len
  | parseDownlink rev len => exact parseDownlinkCommand_ends s rev len
  | buildJoinreq rev => exact .check (by decide) fun _ => .ok (((hrefl _ _).memWrite _ _).setRes0 _)
  | parseJoinacc rev len => exact parseJoinaccCommand_ends s rev len
  | fcntInfer => exact .ok ((hrefl _ _).setRes0 _)
  | checksum verify append => exact checksumCommand_ends s verify append
  | dcCheck retx =>
    show Ends _ (if !dcEn s then _ else _)
    split
    · exact .ok ((hrefl _ _).setResults rfl)
    · exact .check (by decide) fun _ => .ok ((hrefl _ _).setResults rfl)
  | send retx rdelay => exact sendCommand_ends s retx rdelay

end

/-- How a command ends: with its effects and the epilogue, or with a code of R305's table and nothing else (R101). -/
theorem exec_ends {i : Instr} {s t : State} (h : exec i s = .next t) :
    (∃ u, CommandEffect i s u ∧ t = epilogue .ok u) ∨
      ∃ c, 2 ≤ codeNumber c ∧ codeNumber c ≤ 12 ∧ t = epilogue c s := by
  have hends := commandOf_ends s i
  rcases exec_next_cases h with ⟨u, hu, rfl⟩ | ⟨c, hc, rfl⟩
  · exact .inl ⟨u, by rwa [hu] at hends, rfl⟩
  · obtain ⟨hlo, hhi⟩ : 2 ≤ codeNumber c ∧ codeNumber c ≤ 12 := by rwa [hc] at hends
    exact .inr ⟨c, hlo, hhi, rfl⟩

end Sys2Proof.Machine
end

section
/-! PROOFS of the family 10_state.
The scheduler's invariant by phase, and the guard, outcomes and windows that keep it (R240-R282). -/

namespace Sys2Proof.Machine

/-! ### The scheduler's invariant by phase -/

/-- While Idle: no attempt's state is left, and RxC is closed or open with room for a frame (R273, R281). -/
structure IdleShape (s : State) : Prop where
  fsm : s.sched.fsm = .idle
  snap : s.sched.snap = none
  phase : s.sched.guardPhase = .launch
  acc : s.sched.randAcc = []
  radio : s.radioPending = .none ∨
    (s.radioPending = .rx .rxC ∧ ctrlClass s = 2 ∧ rxFits s.sched.rxcOff = true ∧ s.regs.rxPend = false)

/-- After TX_DONE, with no guard in progress. -/
structure AfterTx (s : State) : Prop where
  phase : s.sched.guardPhase = .launch
  acc : s.sched.randAcc = []
  tEnd : s.sched.tEnd.isSome = true

/-- What an attempt's FSM state says of the request and the hidden state (R257-R268, R273). -/
def PhaseShape (sn : Snapshot) (s : State) : Prop :=
  match s.sched.fsm with
  | .idle => False
  | .transmitGuard => GuardConsistent s
  | .transmitting => s.radioPending = .tx ∧ s.sched.guardPhase = .launch ∧ s.sched.randAcc = []
  | .awaitingRx1 | .awaitingRx2 =>
    (s.radioPending = .none ∨ (s.radioPending = .rx .rxC ∧ sn.cls = 2)) ∧ AfterTx s
  | .rx1Open => s.radioPending = .rx .rx1 ∧ AfterTx s ∧ s.sched.tOpen.isSome = true
  | .rx2Open => s.radioPending = .rx .rx2 ∧ AfterTx s ∧ s.sched.tOpen.isSome = true

/-- During an attempt with snapshot `sn`. -/
structure AttemptShape (sn : Snapshot) (s : State) : Prop where
  snap : s.sched.snap = some sn
  legal : SnapshotLegal sn
  noFrame : s.regs.rxPend = false
  phase : PhaseShape sn s

theorem IdleShape.schedInv {s : State} (h : IdleShape s) : SchedInv s := by
  obtain ⟨hf, hs, hg, ha, hr⟩ := h
  have hcls : applicableClass s = ctrlClass s := if_pos hf
  constructor <;> rcases hr with hp | ⟨hp, hc, hfit, hx⟩ <;> simp_all [GuardConsistent, afterTx]

theorem AttemptShape.fsm_ne_idle {sn : Snapshot} {s : State} (h : AttemptShape sn s) : s.sched.fsm ≠ .idle := by
  intro hf
  have hph := h.phase
  rwa [PhaseShape, hf] at hph

theorem AttemptShape.schedInv {sn : Snapshot} {s : State} (h : AttemptShape sn s) : SchedInv s := by
  have hidle := h.fsm_ne_idle
  have hcls : applicableClass s = sn.cls := by simp [applicableClass, hidle, h.snap]
  obtain ⟨hs, hl, hx, hph⟩ := h
  unfold PhaseShape at hph
  cases hf : s.sched.fsm with
  | idle => exact absurd hf hidle
  | transmitGuard =>
    rw [hf] at hph
    have hg := hph
    unfold GuardConsistent at hg
    constructor <;> cases hgp : s.sched.guardPhase <;> simp_all [afterTx]
  | transmitting =>
    rw [hf] at hph
    constructor <;> simp_all [GuardConsistent, afterTx]
  | awaitingRx1 | awaitingRx2 =>
    rw [hf] at hph
    obtain ⟨hp | ⟨hp, hc⟩, hphase, hacc, hend⟩ := hph <;> constructor <;> simp_all [GuardConsistent, afterTx]
  | rx1Open | rx2Open =>
    rw [hf] at hph
    obtain ⟨hp, ⟨hphase, hacc, hend⟩, hopen⟩ := hph
    constructor <;> simp_all [GuardConsistent, afterTx]

/-- A request other than a guard's, a transmission's or a window's leaves the radio free or RxC open. -/
theorem SchedInv.free_or_rxC {s : State} (h : SchedInv s)
    (hf : s.sched.fsm = .idle ∨ s.sched.fsm = .awaitingRx1 ∨ s.sched.fsm = .awaitingRx2) :
    s.radioPending = .none ∨ s.radioPending = .rx .rxC := by
  have h1 := h.rx1
  have h2 := h.rx2
  have htx := h.tx
  have hg := h.guardRequest
  have hst := h.noStandby
  cases hp : s.radioPending with
  | none => exact .inl rfl
  | standby => exact absurd hp hst
  | rx w => cases w <;> simp_all
  | random | cad | tx => simp_all

/-- Outside TransmitGuard no guard is in progress. -/
theorem SchedInv.noGuard {s : State} (h : SchedInv s) (hf : s.sched.fsm ≠ .transmitGuard) :
    s.sched.guardPhase = .launch ∧ s.sched.randAcc = [] := by
  have hg := h.guard
  unfold GuardConsistent at hg
  cases hp : s.sched.guardPhase <;> rw [hp] at hg
  case launch => exact ⟨rfl, hg.2⟩
  all_goals exact absurd hg.1 hf

theorem SchedInv.afterTx {s : State} (h : SchedInv s) (hf : s.sched.fsm ≠ .transmitGuard)
    (hf' : Machine.afterTx s.sched.fsm = true) : AfterTx s :=
  ⟨(h.noGuard hf).1, (h.noGuard hf).2, h.tEnd hf'⟩

theorem SchedInv.idleShape {s : State} (h : SchedInv s) (hf : s.sched.fsm = .idle) : IdleShape s := by
  obtain ⟨hphase, hacc⟩ := h.noGuard (by simp [hf])
  refine ⟨hf, ?_, hphase, hacc, (h.free_or_rxC (.inl hf)).imp_right fun hp => ⟨hp, ?_, h.rxcFits hf hp, ?_⟩⟩
  · have := h.snapPresent.not.2 (not_not.2 hf)
    simpa using this
  · rw [← (h.rxC hp).2, applicableClass, if_pos hf]
  · by_contra hx
    have := (h.held (by simpa using hx)).2
    simp [hp] at this

theorem SchedInv.phaseShape {s : State} (h : SchedInv s) {sn : Snapshot} (hs : s.sched.snap = some sn) :
    PhaseShape sn s := by
  have hidle : s.sched.fsm ≠ .idle := h.snapPresent.1 (by simp [hs])
  have hcls : applicableClass s = sn.cls := by simp [applicableClass, hidle, hs]
  have hwait (hf : s.sched.fsm = .awaitingRx1 ∨ s.sched.fsm = .awaitingRx2) :
      s.radioPending = .none ∨ (s.radioPending = .rx .rxC ∧ sn.cls = 2) :=
    (h.free_or_rxC (.inr hf)).imp_right fun hp => ⟨hp, hcls ▸ (h.rxC hp).2⟩
  unfold PhaseShape
  cases hf : s.sched.fsm with
  | idle => exact hidle hf
  | transmitGuard => exact h.guard
  | transmitting => exact ⟨h.tx.2 hf, h.noGuard (by simp [hf])⟩
  | awaitingRx1 => exact ⟨hwait (.inl hf), h.afterTx (by simp [hf]) (by simp [hf, Machine.afterTx])⟩
  | awaitingRx2 => exact ⟨hwait (.inr hf), h.afterTx (by simp [hf]) (by simp [hf, Machine.afterTx])⟩
  | rx1Open => exact ⟨h.rx1.2 hf, h.afterTx (by simp [hf]) (by simp [hf, Machine.afterTx]), h.tOpen (.inl hf)⟩
  | rx2Open => exact ⟨h.rx2.2 hf, h.afterTx (by simp [hf]) (by simp [hf, Machine.afterTx]), h.tOpen (.inr hf)⟩

theorem SchedInv.attemptShape {s : State} (h : SchedInv s) (hf : s.sched.fsm ≠ .idle) : ∃ sn, AttemptShape sn s := by
  obtain ⟨sn, hs⟩ := Option.isSome_iff_exists.1 (h.snapPresent.2 hf)
  refine ⟨sn, hs, h.snapLegal sn hs, ?_, h.phaseShape hs⟩
  by_contra hx
  exact hf (h.held (by simpa using hx)).1

/-- The invariant reads the scheduler, the pending request, STATUS.RXPEND and, for an idle RxC, SCHED_CTRL.CLASS. -/
theorem SchedInv.congr {s t : State} (h : SchedInv s) (hs : t.sched = s.sched) (hp : t.radioPending = s.radioPending)
    (hc : s.sched.fsm = .idle → s.radioPending = .rx .rxC → ctrlClass t = ctrlClass s)
    (hx : t.regs.rxPend = true → s.regs.rxPend = true) : SchedInv t := by
  have happ (hrx : s.radioPending = .rx .rxC) : applicableClass t = applicableClass s := by
    unfold applicableClass
    rw [hs]
    split
    · exact hc ‹_› hrx
    · rfl
  have hguard : GuardConsistent t = GuardConsistent s := by simp only [GuardConsistent, hs, hp]
  exact
    { rx1 := by rw [hs, hp]; exact h.rx1
      rx2 := by rw [hs, hp]; exact h.rx2
      tx := by rw [hs, hp]; exact h.tx
      guardRequest := by rw [hs, hp]; exact h.guardRequest
      rxC := fun hrx => by rw [hs, happ (hp ▸ hrx)]; exact h.rxC (hp ▸ hrx)
      noStandby := by rw [hp]; exact h.noStandby
      snapPresent := by rw [hs]; exact h.snapPresent
      guard := by rw [hguard]; exact h.guard
      snapLegal := by rw [hs]; exact h.snapLegal
      rxcFits := by rw [hs, hp]; exact h.rxcFits
      tEnd := by rw [hs]; exact h.tEnd
      tOpen := by rw [hs]; exact h.tOpen
      held := fun hx' => by rw [hs, hp]; exact h.held (hx hx') }

/-! ### The guard (R240, R257-R260) -/

/-- An attempt in TransmitGuard, whatever its guard phase and request: what the guard's steps start from. -/
structure InGuard (sn : Snapshot) (s : State) : Prop where
  snap : s.sched.snap = some sn
  legal : SnapshotLegal sn
  noFrame : s.regs.rxPend = false
  fsm : s.sched.fsm = .transmitGuard

section
variable {sn : Snapshot} {s : State}

theorem InGuard.attemptShape (h : InGuard sn s) (hg : GuardConsistent s) : AttemptShape sn s :=
  ⟨h.snap, h.legal, h.noFrame, by rwa [PhaseShape, h.fsm]⟩

/-- The guard's steps change the guard phase, the drawn bytes and the request only. -/
theorem InGuard.update (h : InGuard sn s) (g : GuardPhase) (acc : Bytes) (p : Pending) (out : List Request) :
    InGuard sn { s with
      sched := { s.sched with guardPhase := g, randAcc := acc }, radioPending := p, radioOut := out } :=
  ⟨h.snap, h.legal, h.noFrame, h.fsm⟩

theorem launch_shape (h : InGuard sn s) (ha : s.sched.randAcc = []) : AttemptShape sn (launch sn s) :=
  ⟨h.snap, h.legal, h.noFrame, rfl, rfl, ha⟩

theorem probes_shape (h : InGuard sn s) (ha : s.sched.randAcc = []) (k : Nat) : AttemptShape sn (probes sn k s) := by
  unfold probes
  split
  · exact launch_shape h ha
  · exact (h.update _ _ _ _).attemptShape ⟨h.fsm, rfl, Nat.pos_of_ne_zero ‹_›, ha⟩

theorem startCsma_shape (h : InGuard sn s) (ha : s.sched.randAcc = []) : AttemptShape sn (startCsma sn s) := by
  unfold startCsma
  split
  · exact launch_shape h ha
  split
  · exact (h.update _ _ _ _).attemptShape ⟨h.fsm, rfl, ha⟩
  · exact probes_shape h ha _

theorem randDelayByte_shape (h : InGuard sn s) (hg : s.sched.guardPhase = .randDelay) (hp : s.radioPending = .none)
    (r : Byte) : AttemptShape sn (randDelayByte sn r s) := by
  unfold randDelayByte
  dsimp only
  split
  next hlen =>
    refine (h.update _ _ _ _).attemptShape ?_
    simp only [GuardConsistent, hg]
    exact ⟨h.fsm, rfl, hlen.le⟩
  next => exact (h.update _ _ _ _).attemptShape ⟨h.fsm, hp, rfl⟩

theorem takeSnapshot_legal {retx rdelay : Bool} (h : SendAccepted rdelay s) :
    SnapshotLegal (takeSnapshot retx rdelay s) := by
  have hlen : txLen s < 256 := Nat.mod_lt _ (by decide)
  have hcls : ctrlClass s < 4 := Nat.mod_lt _ (by decide)
  have hl := h.len
  have hc := h.cls
  refine ⟨h.room, ?_, ?_, ?_, h.delay⟩
  · simp only [takeSnapshot, memRead_length]; omega
  · simp only [takeSnapshot, memRead_length, Config.maxFrame]; omega
  · simp only [takeSnapshot]; omega

theorem enterGuard_inGuard (hl : SnapshotLegal sn) (hx : s.regs.rxPend = false) : InGuard sn (enterGuard sn s) :=
  ⟨rfl, hl, by simp only [enterGuard, closeRxC_regs]; exact hx, rfl⟩

theorem startAttempt_shape (hl : SnapshotLegal sn) (hi : IdleShape s) (hx : s.regs.rxPend = false) :
    AttemptShape sn (startAttempt sn s) := by
  have h := enterGuard_inGuard hl hx
  unfold startAttempt
  dsimp only
  split
  · exact (h.update _ _ _ _).attemptShape ⟨rfl, rfl, Nat.zero_le 1⟩
  · exact startCsma_shape h (by simp only [enterGuard, closeRxC_sched]; exact hi.acc)

/-! ### Outcomes and windows (R263-R270) -/

/-- An outcome ends in Idle with the radio free. -/
theorem outcome_schedInv (w : Nat) (e : Code) (hp : s.radioPending = .none) : SchedInv (outcome w e s) :=
  IdleShape.schedInv ⟨rfl, rfl, rfl, rfl, .inl hp⟩

/-- A window that closes without a frame, once the radio is free. -/
theorem closeWindow_schedInv (hs : s.sched.snap = some sn) (hl : SnapshotLegal sn) (hx : s.regs.rxPend = false)
    (ha : AfterTx s) (hp : s.radioPending = .none) : SchedInv (closeWindow s) := by
  unfold closeWindow
  split
  · exact AttemptShape.schedInv (sn := sn) ⟨hs, hl, hx, .inl hp, ha.phase, ha.acc, ha.tEnd⟩
  · exact outcome_schedInv _ _ hp

theorem inRam_of_rxFits {off n : Nat} (h : rxFits off = true) (hn : n ≤ Config.maxFrame) : inRam off n = true := by
  simp only [rxFits, inRam, decide_eq_true_eq] at *
  omega

/-- A frame in an attempt ends it: it fits at the snapshot's offset (R256, R266). -/
theorem onAttemptFrame_schedInv {b : Bytes} (w : Nat) (hl : SnapshotLegal sn) (hb : b.length ≤ Config.maxFrame)
    (hp : s.radioPending = .none) : ∃ t, onAttemptFrame w sn b s = .next t ∧ SchedInv t :=
  ⟨_, if_pos (inRam_of_rxFits hl.1 hb), outcome_schedInv _ _ hp⟩

/-- A frame received by an idle RxC waits with the radio free (R282). -/
theorem onIdleFrame_schedInv {b : Bytes} (hi : IdleShape s) (hb : b.length ≤ Config.maxFrame)
    (hfit : rxFits s.sched.rxcOff = true) (hp : s.radioPending = .none) :
    ∃ t, onIdleFrame b s = .next t ∧ SchedInv t :=
  ⟨_, if_pos (inRam_of_rxFits hfit hb), IdleShape.schedInv ⟨hi.fsm, hi.snap, hi.phase, hi.acc, .inl hp⟩⟩

end

end Sys2Proof.Machine
end

section
/-! PROOFS of the family 10_state.
Urgent steps and radio events do not stop and keep the scheduler's invariant (R251-R282). -/

namespace Sys2Proof.Machine

/-! ### Urgent steps (R252) -/

section
variable {sn : Snapshot} {s : State}

theorem urgentGuard_u1 (h : urgentGuard s .u1 = true) :
    s.sched.fsm = .transmitGuard ∧ ∃ t0 d, s.sched.guardPhase = .delay t0 d := by
  simp only [urgentGuard] at h
  split at h
  next t0 d hg =>
    rw [Bool.and_eq_true, decide_eq_true_eq] at h
    exact ⟨h.1, t0, d, hg⟩
  next => cases h

theorem fsm_of_dueRx1 (h : dueRx1 s = true) : s.sched.fsm = .awaitingRx1 := by
  unfold dueRx1 at h
  split at h
  · cases h
  · rw [Bool.and_eq_true, decide_eq_true_eq] at h
    exact h.1

theorem fsm_of_dueRx2 (h : dueRx2 s = true) : s.sched.fsm = .awaitingRx2 := by
  unfold dueRx2 at h
  split at h
  · cases h
  · rw [Bool.and_eq_true, decide_eq_true_eq] at h
    exact h.1

theorem fsm_of_deadline (h : deadline s = true) : s.sched.fsm = .rx1Open ∨ s.sched.fsm = .rx2Open := by
  unfold deadline at h
  split at h
  · cases h
  · split at h
    · exact .inl ‹_›
    · exact .inr ‹_›
    · cases h

theorem urgentGuard_u5 (hs : s.sched.snap = some sn) (h : urgentGuard s .u5 = true) :
    sn.cls = 2 ∧ (s.sched.fsm = .awaitingRx1 ∨ s.sched.fsm = .awaitingRx2) ∧ s.radioPending = .none := by
  simp only [urgentGuard, hs, Bool.and_eq_true, Bool.or_eq_true, decide_eq_true_eq] at h
  obtain ⟨⟨⟨⟨hc, hf⟩, hp⟩, -⟩, -⟩ := h
  exact ⟨hc, hf, hp⟩

theorem urgentGuard_u6 (h : urgentGuard s .u6 = true) :
    s.sched.fsm = .idle ∧ ctrlClass s = 2 ∧ s.regs.rxPend = false ∧ s.radioPending = .none ∧
      rxFits (rxOff s) = true := by
  simpa [urgentGuard, and_assoc] using h

/-- Only U6 is due while Idle, and only U6 needs no snapshot (R252). -/
theorem fsm_ne_idle_of_urgentGuard {u : Urgent} (hu : u ≠ .u6) (h : urgentGuard s u = true) : s.sched.fsm ≠ .idle := by
  intro hf
  cases u with
  | u1 => exact absurd (urgentGuard_u1 h).1 (by simp [hf])
  | u2 => exact absurd (fsm_of_dueRx1 h) (by simp [hf])
  | u3 => exact absurd (fsm_of_dueRx2 h) (by simp [hf])
  | u4 => exact absurd (fsm_of_deadline h) (by simp [hf])
  | u5 =>
    cases hs : s.sched.snap with
    | none => simp [urgentGuard, hs] at h
    | some sn => exact absurd (urgentGuard_u5 hs h).2.1 (by simp [hf])
  | u6 => exact hu rfl

theorem runUrgent_attempt (u : Urgent) (hs : s.sched.snap = some sn) :
    runUrgent u s = .next (attemptUrgent u sn s) := by
  unfold runUrgent
  rw [hs]
  cases u <;> rfl

theorem AttemptShape.inGuard (h : AttemptShape sn s) (hf : s.sched.fsm = .transmitGuard) : InGuard sn s :=
  ⟨h.snap, h.legal, h.noFrame, hf⟩

theorem AttemptShape.guardConsistent (h : AttemptShape sn s) (hf : s.sched.fsm = .transmitGuard) :
    GuardConsistent s := by
  have hph := h.phase
  rwa [PhaseShape, hf] at hph

theorem AttemptShape.waiting (h : AttemptShape sn s) (hf : s.sched.fsm = .awaitingRx1 ∨ s.sched.fsm = .awaitingRx2) :
    (s.radioPending = .none ∨ (s.radioPending = .rx .rxC ∧ sn.cls = 2)) ∧ AfterTx s := by
  have hph := h.phase
  unfold PhaseShape at hph
  rcases hf with hf | hf <;> rwa [hf] at hph

theorem AttemptShape.window (h : AttemptShape sn s) (hf : s.sched.fsm = .rx1Open ∨ s.sched.fsm = .rx2Open) :
    (s.radioPending = .rx .rx1 ∨ s.radioPending = .rx .rx2) ∧ AfterTx s := by
  have hph := h.phase
  unfold PhaseShape at hph
  rcases hf with hf | hf <;> rw [hf] at hph
  · exact ⟨.inl hph.1, hph.2.1⟩
  · exact ⟨.inr hph.1, hph.2.1⟩

/-- The only window that the FSM state allows is the one opened. -/
theorem openWindow_shape (h : AttemptShape sn s) (ha : AfterTx s) {w : RxWindow} {f : Fsm}
    (hw : (w = .rx1 ∧ f = .rx1Open) ∨ (w = .rx2 ∧ f = .rx2Open)) (freq : Word) (dr : Byte) :
    AttemptShape sn (openWindow w freq dr sn f s) := by
  obtain ⟨hphase, hacc, hend⟩ := ha
  have hafter : AfterTx (openWindow w freq dr sn f s) := by
    constructor <;> simpa [openWindow]
  refine ⟨?_, h.legal, ?_, ?_⟩
  · simpa [openWindow] using h.snap
  · simpa [openWindow] using h.noFrame
  · obtain ⟨rfl, rfl⟩ | ⟨rfl, rfl⟩ := hw
    · exact ⟨rfl, hafter, rfl⟩
    · exact ⟨rfl, hafter, rfl⟩

/-- An urgent step of an attempt keeps the scheduler's invariant. -/
theorem attemptUrgent_schedInv (h : AttemptShape sn s) {u : Urgent} (hu : urgentGuard s u = true) (h6 : u ≠ .u6) :
    SchedInv (attemptUrgent u sn s) := by
  cases u with
  | u1 =>
    obtain ⟨hf, t0, d, hg⟩ := urgentGuard_u1 hu
    have hgc := h.guardConsistent hf
    rw [GuardConsistent, hg] at hgc
    exact (startCsma_shape (h.inGuard hf) hgc.2.2).schedInv
  | u2 => exact (openWindow_shape h (h.waiting (.inl (fsm_of_dueRx1 hu))).2 (.inl ⟨rfl, rfl⟩) _ _).schedInv
  | u3 => exact (openWindow_shape h (h.waiting (.inr (fsm_of_dueRx2 hu))).2 (.inr ⟨rfl, rfl⟩) _ _).schedInv
  | u4 =>
    obtain ⟨-, hphase, hacc, hend⟩ := h.window (fsm_of_deadline hu)
    exact closeWindow_schedInv (s := emit .standby s) h.snap h.legal h.noFrame ⟨hphase, hacc, hend⟩ rfl
  | u5 =>
    obtain ⟨hc, hf, -⟩ := urgentGuard_u5 h.snap hu
    obtain ⟨-, hphase, hacc, hend⟩ := h.waiting hf
    refine AttemptShape.schedInv (sn := sn) ⟨h.snap, h.legal, h.noFrame, ?_⟩
    rcases hf with hf | hf <;> rw [PhaseShape, attemptUrgent, emit_sched, hf] <;>
      exact ⟨.inr ⟨rfl, hc⟩, hphase, hacc, hend⟩
  | u6 => exact absurd rfl h6

theorem openIdleRxC_schedInv (h : SchedInv s) (hu : urgentGuard s .u6 = true) : SchedInv (openIdleRxC s) := by
  obtain ⟨hf, hc, hx, -, hfit⟩ := urgentGuard_u6 hu
  have hi := h.idleShape hf
  exact IdleShape.schedInv ⟨hf, hi.snap, hi.phase, hi.acc, .inr ⟨rfl, hc, hfit, hx⟩⟩

/-- A due urgent step does not stop and keeps the scheduler's invariant. -/
theorem runUrgent_schedInv (h : SchedInv s) {u : Urgent} (hu : urgentGuard s u = true) :
    ∃ t, runUrgent u s = .next t ∧ SchedInv t := by
  by_cases h6 : u = .u6
  · subst h6
    exact ⟨_, rfl, openIdleRxC_schedInv h hu⟩
  · obtain ⟨sn, ha⟩ := h.attemptShape (fsm_ne_idle_of_urgentGuard h6 hu)
    exact ⟨_, runUrgent_attempt u ha.snap, attemptUrgent_schedInv ha hu h6⟩

/-! ### Radio events (R251-R282) -/

theorem eventMatches_random {e : Event} (h : eventMatches .random e = true) : ∃ r, e = .random r := by
  cases e with
  | random r => exact ⟨r, rfl⟩
  | _ => cases h

theorem eventMatches_cad {e : Event} (h : eventMatches .cad e = true) : e = .cadClear ∨ e = .cadBusy := by
  cases e with
  | cadClear => exact .inl rfl
  | cadBusy => exact .inr rfl
  | _ => cases h

theorem eventMatches_tx {e : Event} (h : eventMatches .tx e = true) : e = .txDone ∨ e = .txFail := by
  cases e with
  | txDone => exact .inl rfl
  | txFail => exact .inr rfl
  | _ => cases h

theorem eventMatches_rx {w : RxWindow} {e : Event} (h : eventMatches (.rx w) e = true) :
    (∃ b, e = .rxDone b ∧ b.length ≤ Config.maxFrame) ∨ e = .rxTimeout ∨ e = .rxFail := by
  cases e with
  | rxDone b =>
    simp only [eventMatches, Bool.and_eq_true, decide_eq_true_eq] at h
    exact .inl ⟨b, rfl, h.2⟩
  | rxTimeout => exact .inr (.inl rfl)
  | rxFail => exact .inr (.inr rfl)
  | _ => cases h

/-- Under the invariant an answered request fits its phase (R273). -/
theorem SchedInv.requestInPhase (h : SchedInv s) {e : Event} (hm : eventMatches s.radioPending e = true) :
    Machine.requestInPhase s.radioPending s.sched.fsm = true := by
  cases hp : s.radioPending with
  | none => rw [hp] at hm; cases hm
  | standby => exact absurd hp h.noStandby
  | random => exact decide_eq_true (h.guardRequest (.inr hp))
  | cad => exact decide_eq_true (h.guardRequest (.inl hp))
  | tx => exact decide_eq_true (h.tx.1 hp)
  | rx w =>
    cases w with
    | rx1 => exact decide_eq_true (h.rx1.1 hp)
    | rx2 => exact decide_eq_true (h.rx2.1 hp)
    | rxC => simpa [Machine.requestInPhase, or_assoc] using (h.rxC hp).1

theorem radioEvent_ignored {e : Event} (hm : eventMatches s.radioPending e = false) : radioEvent e s = .next s := by
  simp [radioEvent, hm]

theorem radioEvent_idle {e : Event} (hm : eventMatches s.radioPending e = true)
    (hp : requestInPhase s.radioPending s.sched.fsm = true) (hf : s.sched.fsm = .idle) :
    radioEvent e s = onIdleRxC e { s with radioPending := .none } := by
  simp only [radioEvent, hm, hp, Bool.not_true, Bool.false_eq_true, if_false]
  rw [hf]

theorem radioEvent_attempt {e : Event} (hm : eventMatches s.radioPending e = true)
    (hp : requestInPhase s.radioPending s.sched.fsm = true) (hf : s.sched.fsm ≠ .idle) (hs : s.sched.snap = some sn) :
    radioEvent e s = onAttemptEvent s.radioPending sn e { s with radioPending := .none } := by
  simp only [radioEvent, hm, hp, hs, Bool.not_true, Bool.false_eq_true, if_false]

theorem onIdleRxC_schedInv (hi : IdleShape s) {e : Event} (hm : eventMatches s.radioPending e = true) :
    ∃ t, onIdleRxC e { s with radioPending := .none } = .next t ∧ SchedInv t := by
  rcases hi.radio with hp | ⟨hp, -, hfit, -⟩
  · rw [hp] at hm; cases hm
  rw [hp] at hm
  have hfree : IdleShape { s with radioPending := .none } := ⟨hi.fsm, hi.snap, hi.phase, hi.acc, .inl rfl⟩
  rcases eventMatches_rx hm with ⟨b, rfl, hb⟩ | rfl | rfl
  · exact onIdleFrame_schedInv hfree hb hfit rfl
  · exact ⟨_, rfl, hfree.schedInv⟩
  · exact ⟨_, rfl, hfree.schedInv⟩

/-- An answer to a guard's request: a random byte or a probe (R257, R259). -/
theorem guardEvent_schedInv (h : AttemptShape sn s) (hf : s.sched.fsm = .transmitGuard) {e : Event}
    (hm : eventMatches s.radioPending e = true) :
    ∃ t, onAttemptEvent s.radioPending sn e { s with radioPending := .none } = .next t ∧ SchedInv t := by
  have hin : InGuard sn { s with radioPending := .none } := ⟨h.snap, h.legal, h.noFrame, hf⟩
  have hgc := h.guardConsistent hf
  unfold GuardConsistent at hgc
  cases hg : s.sched.guardPhase with
  | randDelay =>
    rw [hg] at hgc
    obtain ⟨r, rfl⟩ := eventMatches_random (hgc.2.1 ▸ hm)
    refine ⟨_, ?_, (randDelayByte_shape hin hg rfl r).schedInv⟩
    simp [onAttemptEvent, onRandom, hg]
  | delay t0 d =>
    rw [hg] at hgc
    rw [hgc.2.1] at hm
    cases hm
  | randBackoff =>
    rw [hg] at hgc
    obtain ⟨r, rfl⟩ := eventMatches_random (hgc.2.1 ▸ hm)
    refine ⟨_, ?_, (probes_shape hin hgc.2.2 (sn.difs + r.toNat % (sn.backoffMax + 1))).schedInv⟩
    simp [onAttemptEvent, onRandom, hg]
  | probe k =>
    rw [hg] at hgc
    rcases eventMatches_cad (hgc.2.1 ▸ hm) with rfl | rfl
    · refine ⟨_, ?_, (probes_shape hin hgc.2.2.2 (k - 1)).schedInv⟩
      simp [onAttemptEvent, onCad, hg]
    · refine ⟨_, ?_, outcome_schedInv 0 .channelBusy (s := { s with radioPending := .none }) rfl⟩
      simp [onAttemptEvent, onCad, hg]
  | launch =>
    rw [hg] at hgc
    exact absurd hf hgc.1

/-- TX_DONE starts the wait for Rx1, TX_FAIL ends the attempt (R262). -/
theorem txEvent_schedInv (h : AttemptShape sn s) (hp : s.radioPending = .tx) (hphase : s.sched.guardPhase = .launch)
    (hacc : s.sched.randAcc = []) {e : Event} (hm : eventMatches s.radioPending e = true) :
    ∃ t, onAttemptEvent s.radioPending sn e { s with radioPending := .none } = .next t ∧ SchedInv t := by
  rw [hp] at hm
  rcases eventMatches_tx hm with rfl | rfl
  · exact ⟨_, rfl, AttemptShape.schedInv (sn := sn) ⟨h.snap, h.legal, h.noFrame, .inl rfl, hphase, hacc, rfl⟩⟩
  · exact ⟨_, rfl, outcome_schedInv _ _ rfl⟩

/-- An answer to RxC during an attempt: a frame ends it, anything else leaves the radio free (R268). -/
theorem rxCEvent_schedInv (h : AttemptShape sn s) (hf : s.sched.fsm = .awaitingRx1 ∨ s.sched.fsm = .awaitingRx2)
    {e : Event} (hm : eventMatches s.radioPending e = true) :
    ∃ t, onAttemptEvent s.radioPending sn e { s with radioPending := .none } = .next t ∧ SchedInv t := by
  obtain ⟨hp | ⟨hp, -⟩, hphase, hacc, hend⟩ := h.waiting hf
  · rw [hp] at hm; cases hm
  have hfree : AttemptShape sn { s with radioPending := .none } := by
    refine ⟨h.snap, h.legal, h.noFrame, ?_⟩
    rcases hf with hf | hf <;> rw [PhaseShape, hf] <;> exact ⟨.inl rfl, hphase, hacc, hend⟩
  rw [hp] at hm ⊢
  rcases eventMatches_rx hm with ⟨b, rfl, hb⟩ | rfl | rfl
  · exact onAttemptFrame_schedInv _ h.legal hb rfl
  · exact ⟨_, rfl, hfree.schedInv⟩
  · exact ⟨_, rfl, hfree.schedInv⟩

/-- An answer to Rx1 or Rx2 (R265-R267). -/
theorem windowEvent_schedInv (h : AttemptShape sn s) (hf : s.sched.fsm = .rx1Open ∨ s.sched.fsm = .rx2Open)
    {e : Event} (hm : eventMatches s.radioPending e = true) :
    ∃ t, onAttemptEvent s.radioPending sn e { s with radioPending := .none } = .next t ∧ SchedInv t := by
  obtain ⟨hp, hphase, hacc, hend⟩ := h.window hf
  obtain ⟨w, hpw, hw⟩ : ∃ w, s.radioPending = .rx w ∧ w ≠ .rxC := by
    rcases hp with hp | hp
    · exact ⟨_, hp, nofun⟩
    · exact ⟨_, hp, nofun⟩
  rw [hpw] at hm ⊢
  have hwin (e : Event) (he : eventMatches (.rx w) e = true) :
      onAttemptEvent (.rx w) sn e { s with radioPending := .none } =
        onWindowEvent w sn e { s with radioPending := .none } := by
    rcases eventMatches_rx he with ⟨b, rfl, -⟩ | rfl | rfl <;> cases w <;> first | rfl | exact absurd rfl hw
  rw [hwin e hm]
  rcases eventMatches_rx hm with ⟨b, rfl, hb⟩ | rfl | rfl
  · exact onAttemptFrame_schedInv _ h.legal hb rfl
  · exact ⟨_, rfl, closeWindow_schedInv (s := { s with radioPending := .none }) h.snap h.legal h.noFrame
      ⟨hphase, hacc, hend⟩ rfl⟩
  · exact ⟨_, rfl, outcome_schedInv _ _ rfl⟩

/-- A radio event does not stop and keeps the scheduler's invariant. -/
theorem radioEvent_schedInv (h : SchedInv s) (e : Event) : ∃ t, radioEvent e s = .next t ∧ SchedInv t := by
  cases hm : eventMatches s.radioPending e with
  | false => exact ⟨s, radioEvent_ignored hm, h⟩
  | true =>
    have hphase := h.requestInPhase hm
    by_cases hf : s.sched.fsm = .idle
    · rw [radioEvent_idle hm hphase hf]
      exact onIdleRxC_schedInv (h.idleShape hf) hm
    obtain ⟨sn, ha⟩ := h.attemptShape hf
    rw [radioEvent_attempt hm hphase hf ha.snap]
    have hph := ha.phase
    unfold PhaseShape at hph
    cases hf' : s.sched.fsm with
    | idle => exact absurd hf' hf
    | transmitGuard => exact guardEvent_schedInv ha hf' hm
    | transmitting =>
      rw [hf'] at hph
      exact txEvent_schedInv ha hph.1 hph.2.1 hph.2.2 hm
    | awaitingRx1 => exact rxCEvent_schedInv ha (.inl hf') hm
    | awaitingRx2 => exact rxCEvent_schedInv ha (.inr hf') hm
    | rx1Open => exact windowEvent_schedInv ha (.inl hf') hm
    | rx2Open => exact windowEvent_schedInv ha (.inr hf') hm

end

end Sys2Proof.Machine
end

section
/-! PROOFS of the family 10_state.
Reserved bits and result codes, and the scheduler's steps that end no transmission (R22, R45, R300). -/

namespace Sys2Proof.Machine

/-! ### Reserved bits and result codes (R22, R300) -/

/-- The stored registers with reserved bits (R22, R24-R53). -/
def narrowRegs : List Reg :=
  [.irqEn, .irqStat, .src, .dst, .lastJn, .dnValid, .schedCtrl, .csmaCfg, .txBuf, .txDr, .rx1Dr, .rx2Dr, .rxBuf,
    .sendResult]

/-- Reserved bits are 0 in the stored registers. -/
def RegsReserved (g : Regs) : Prop := ∀ r ∈ narrowRegs, Within (storedWord r g) (implementedBits r)

/-- What the invariant asks of the registers. -/
structure RegsLegal (g : Regs) : Prop where
  reserved : RegsReserved g
  err : codeNumber g.err ≤ 12
  result : g.sendResult ∈ legalSendResults

theorem derivedReg_of_mem_narrowRegs {r : Reg} (h : r ∈ narrowRegs) : derivedReg r = false := by
  have hall : ∀ r ∈ narrowRegs, derivedReg r = false := by decide
  exact hall r h

/-- Only the narrow registers matter. -/
theorem RegsReserved.congr {g g' : Regs} (h : RegsReserved g)
    (he : narrowRegs.map (storedWord · g') = narrowRegs.map (storedWord · g)) : RegsReserved g' :=
  fun r hr => (List.map_inj_left.1 he r hr).symm ▸ h r hr

theorem RegsReserved.put {g : Regs} (h : RegsReserved g) {r : Reg} (hr : derivedReg r = false) {v : Word}
    (hv : Within v (implementedBits r)) : RegsReserved (putReg r v g) := by
  intro q hq
  rw [storedWord_putReg v g hr (derivedReg_of_mem_narrowRegs hq)]
  split
  · next he => exact he ▸ hv
  · exact h q hq

theorem codeNumber_le (c : Code) : codeNumber c ≤ 15 := by cases c <;> decide

theorem rxcNumber_le (s : State) : rxcNumber s ≤ 2 := by
  unfold rxcNumber
  split
  · exact le_rfl
  split <;> decide

theorem flag_le (b : Bool) : flag b ≤ 1 := by cases b <;> decide

theorem statusWord_within (s : State) : Within (statusWord s) 0x7FF := by
  have hc := codeNumber_le s.regs.err
  have hb := flag_le (sbusy s)
  have hx := flag_le s.regs.rxPend
  have ho := flag_le (rxcOpen s)
  exact within_word (n := 11) (by omega) (by decide)

theorem fsmNumber_le (f : Fsm) : fsmNumber f ≤ 6 := by cases f <;> decide

theorem schedStateWord_within (s : State) : Within (schedStateWord s) 0x3F := by
  have hf := fsmNumber_le s.sched.fsm
  have hr := rxcNumber_le s
  exact within_word (n := 6) (by omega) (by decide)

theorem reg_kind (r : Reg) : r = .status ∨ r = .schedState ∨ r ∈ narrowRegs ∨ implementedBits r = 0xFFFFFFFF := by
  cases r <;> decide

theorem reservedReadZero_iff (s : State) : ReservedReadZero s ↔ RegsReserved s.regs := by
  constructor
  · intro h r hr
    rw [← readReg_eq_storedWord s (derivedReg_of_mem_narrowRegs hr)]
    exact h r
  · intro h r
    rcases reg_kind r with rfl | rfl | hr | hr
    · exact statusWord_within s
    · exact schedStateWord_within s
    · rw [readReg_eq_storedWord s (derivedReg_of_mem_narrowRegs hr)]
      exact h r hr
    · rw [hr]
      exact within_allOnes _

/-- The invariant: canonical RAM, legal registers and a consistent scheduler. -/
theorem inv_iff (s : State) : Inv s ↔ Memory.wf s.ram = true ∧ RegsLegal s.regs ∧ SchedInv s :=
  ⟨fun h => ⟨h.memory, ⟨(reservedReadZero_iff s).1 h.reserved, h.codes.1, h.codes.2⟩, h.sched⟩,
    fun ⟨hm, hr, hs⟩ => ⟨hm, (reservedReadZero_iff s).2 hr.reserved, ⟨hr.err, hr.result⟩, hs⟩⟩

/-- An update of registers without reserved bits, STATUS.ERR and SEND_RESULT apart, stays legal. -/
theorem RegsLegal.congr {g g' : Regs} (h : RegsLegal g)
    (he : narrowRegs.map (storedWord · g') = narrowRegs.map (storedWord · g)) (herr : g'.err = g.err) : RegsLegal g' := by
  have hresult : g'.sendResult = g.sendResult := List.map_inj_left.1 he .sendResult (by decide)
  exact ⟨h.reserved.congr he, herr ▸ h.err, hresult ▸ h.result⟩

theorem storedWord_sendResult (g : Regs) : storedWord .sendResult g = g.sendResult := rfl

/-- Storing a word without reserved bits stays legal; in SEND_RESULT it must be an outcome. -/
theorem RegsLegal.put {g : Regs} (h : RegsLegal g) {r : Reg} (hr : derivedReg r = false) {v : Word}
    (hv : Within v (implementedBits r)) (hres : r = .sendResult → v ∈ legalSendResults) : RegsLegal (putReg r v g) := by
  refine ⟨h.reserved.put hr hv, (putReg_err r v g).symm ▸ h.err, ?_⟩
  rw [← storedWord_sendResult, storedWord_putReg v g hr rfl]
  split
  · next he => exact hres he.symm
  · exact h.result

theorem legalSendResults_within {v : Word} (h : v ∈ legalSendResults) : Within v (implementedBits .sendResult) := by
  have hall : ∀ v ∈ legalSendResults, v &&& ~~~ implementedBits .sendResult = 0 := by
    simp [legalSendResults, sendResultWord, codeNumber, word, implementedBits]
  exact hall v h

theorem RegsLegal.putResult {g : Regs} (h : RegsLegal g) {v : Word} (hv : v ∈ legalSendResults) :
    RegsLegal { g with sendResult := v } :=
  h.put (r := .sendResult) rfl (legalSendResults_within hv) fun _ => hv

/-- Setting implemented bits of IRQ_STAT. -/
theorem RegsLegal.raise {g : Regs} (h : RegsLegal g) {v : Word} (hv : Within v 0xF) :
    RegsLegal { g with irqStat := g.irqStat ||| v } :=
  h.put (r := .irqStat) rfl ((h.reserved .irqStat (by decide)).or hv) nofun

theorem RegsLegal.epilogue {s : State} {c : Code} (h : RegsLegal s.regs) (hc : codeNumber c ≤ 12) :
    RegsLegal (epilogue c s).regs := by
  have hraise : Within (if c = .ok then 1 else 3) 0xF := by
    unfold Within
    split <;> decide
  exact ⟨(h.raise hraise).reserved, hc, h.result⟩

/-- A field write keeps reserved bits 0: a register's RW bits are implemented ones, and SEND_RESULT has none (R22). -/
theorem RegsLegal.writeFields {s : State} (h : RegsLegal s.regs) {r : Reg} (hr : derivedReg r = false) (v : Word) :
    RegsLegal (writeFields r v s).regs := by
  have hmask : Within (writeMask r) (implementedBits r) := by
    unfold Within
    cases r <;> decide
  have hold : Within (readReg s r) (implementedBits r) := by
    rw [readReg_eq_storedWord s hr]
    rcases reg_kind r with rfl | rfl | hn | hw
    · cases hr
    · cases hr
    · exact h.reserved r hn
    · rw [hw]; exact within_allOnes _
  refine h.put hr (hold.fieldWrite v hmask) ?_
  rintro rfl
  rw [show writeMask .sendResult = 0 from rfl, fieldWrite_zero]
  exact h.result

theorem RegsLegal.writeReg {s : State} (h : RegsLegal s.regs) (r : Reg) (v : Word) : RegsLegal (writeReg r v s).regs := by
  by_cases hs : r = .status
  · subst hs
    rw [writeReg_status]
    exact h.congr rfl rfl
  by_cases hi : r = .irqStat
  · subst hi
    exact h.put (r := .irqStat) rfl ((h.reserved .irqStat (by decide)).and _) nofun
  by_cases hc : r = .schedCtrl
  · subst hc
    have := h.writeFields (r := .schedCtrl) rfl v
    rwa [← leaveClassC_regs] at this
  rw [writeReg_plain hs hi hc]
  split
  · exact h
  cases hd : derivedReg r with
  | false => exact h.writeFields hd v
  | true =>
    obtain rfl : r = .schedState := by cases r <;> simp_all [derivedReg]
    exact h

/-! ### What the scheduler's steps leave alone -/

/-- A step that touches the scheduler, the pending request and the requests emitted, and nothing else. -/
structure RadioOnly (s t : State) : Prop where
  regs : t.regs = s.regs
  keys : t.keys = s.keys
  ram : t.ram = s.ram
  busFault : t.busFault = s.busFault
  inputs : t.inputs = s.inputs
  busOut : t.busOut = s.busOut

theorem probes_radioOnly (sn : Snapshot) (k : Nat) (s : State) : RadioOnly s (probes sn k s) := by
  unfold probes
  split <;> exact ⟨rfl, rfl, rfl, rfl, rfl, rfl⟩

theorem startCsma_radioOnly (sn : Snapshot) (s : State) : RadioOnly s (startCsma sn s) := by
  unfold startCsma
  split
  · exact ⟨rfl, rfl, rfl, rfl, rfl, rfl⟩
  split
  · exact ⟨rfl, rfl, rfl, rfl, rfl, rfl⟩
  · exact probes_radioOnly sn _ s

/-- A step of the scheduler or the radio that ends no transmission: the bus-fault mark, NOW and FCNTUP stay, RAM stays
canonical and the registers legal (R74, R52, R45). -/
structure Quiet (s t : State) : Prop where
  busFault : t.busFault = s.busFault
  now : t.regs.now = s.regs.now
  fcntUp : t.regs.fcntUp = s.regs.fcntUp
  memory : Memory.wf s.ram = true → Memory.wf t.ram = true
  regs : RegsLegal s.regs → RegsLegal t.regs

theorem Quiet.of_same {s t : State} (hb : t.busFault = s.busFault) (hr : t.regs = s.regs) (hm : t.ram = s.ram) :
    Quiet s t :=
  ⟨hb, by rw [hr], by rw [hr], by rw [hm]; exact id, by rw [hr]; exact id⟩

theorem RadioOnly.quiet {s t : State} (h : RadioOnly s t) : Quiet s t := .of_same h.busFault h.regs h.ram

theorem Quiet.trans {s t u : State} (h : Quiet s t) (h' : Quiet t u) : Quiet s u :=
  ⟨h'.busFault.trans h.busFault, h'.now.trans h.now, h'.fcntUp.trans h.fcntUp, h'.memory ∘ h.memory, h'.regs ∘ h.regs⟩

section
variable (sn : Snapshot) (s : State)

theorem openWindow_quiet (w : RxWindow) (freq : Word) (dr : Byte) (f : Fsm) : Quiet s (openWindow w freq dr sn f s) :=
  .of_same (closeRxC_busFault s) (closeRxC_regs s) (closeRxC_ram s)

theorem outcome_quiet {w : Nat} {e : Code} (h : sendResultWord w e ∈ legalSendResults) : Quiet s (outcome w e s) :=
  ⟨rfl, rfl, rfl, id, fun hr => (hr.putResult h).raise (by unfold Within; decide)⟩

theorem closeWindow_quiet : Quiet s (closeWindow s) := by
  unfold closeWindow
  split
  · exact .of_same rfl rfl rfl
  · exact outcome_quiet s (by decide)

theorem setRxLen_within (v : Word) (n : Nat) : Within (setRxLen v n) (implementedBits .rxBuf) := by
  have hoff : bits v 8 0 < 2 ^ 9 := Nat.mod_lt _ (by decide)
  have hlen : n % 256 < 2 ^ 8 := Nat.mod_lt _ (by decide)
  have hpack : setRxLen v n = word (2 ^ 16 * (n % 256)) ||| word (bits v 8 0) := by
    rw [setRxLen, ← word_add_eq_or (by omega), Nat.add_comm, Nat.mul_comm]
  rw [hpack]
  exact (within_shifted hlen (by decide)).or (within_word hoff (by decide))

theorem storeFrame_quiet (off : Nat) (b : Bytes) : Quiet s (storeFrame off b s) :=
  ⟨rfl, rfl, rfl, memWrite_wf s off b, fun hr =>
    (hr.put (r := .rxBuf) rfl (setRxLen_within s.regs.rxBuf b.length) nofun).congr rfl rfl⟩

theorem attemptUrgent_quiet (u : Urgent) : Quiet s (attemptUrgent u sn s) := by
  cases u with
  | u1 => exact (startCsma_radioOnly sn s).quiet
  | u2 => exact openWindow_quiet sn s _ _ _ _
  | u3 => exact openWindow_quiet sn s _ _ _ _
  | u4 => exact (Quiet.of_same rfl rfl rfl : Quiet s (emit .standby s)).trans (closeWindow_quiet _)
  | u5 => exact .of_same rfl rfl rfl
  | u6 => exact .of_same rfl rfl rfl

end

theorem runUrgent_quiet {u : Urgent} {s t : State} (h : runUrgent u s = .next t) : Quiet s t := by
  cases hs : s.sched.snap with
  | some sn =>
    rw [runUrgent_attempt u hs] at h
    cases h
    exact attemptUrgent_quiet sn s u
  | none =>
    unfold runUrgent at h
    rw [hs] at h
    cases u <;> cases h
    exact .of_same rfl rfl rfl

section
variable {sn : Snapshot} {s t : State}

theorem windowResult_legal (w : RxWindow) : sendResultWord (windowNumber w) .ok ∈ legalSendResults := by
  cases w <;> decide

theorem onRandom_quiet {r : Byte} (h : onRandom sn r s = .next t) : Quiet s t := by
  unfold onRandom at h
  split at h
  · cases h
    unfold randDelayByte
    dsimp only
    split <;> exact .of_same rfl rfl rfl
  · cases h
    exact (probes_radioOnly sn _ s).quiet
  · cases h

theorem onCad_quiet {clear : Bool} (h : onCad sn clear s = .next t) : Quiet s t := by
  unfold onCad at h
  split at h
  · cases h
    split
    · exact (probes_radioOnly sn _ s).quiet
    · exact outcome_quiet s (by decide)
  · cases h

theorem onAttemptFrame_quiet {w : Nat} {b : Bytes} (hw : sendResultWord w .ok ∈ legalSendResults)
    (h : onAttemptFrame w sn b s = .next t) : Quiet s t := by
  unfold onAttemptFrame at h
  split at h
  · cases h
    exact (storeFrame_quiet s _ _).trans (outcome_quiet _ hw)
  · cases h

theorem onIdleRxC_quiet {e : Event} (h : onIdleRxC e s = .next t) : Quiet s t := by
  unfold onIdleRxC at h
  split at h
  · unfold onIdleFrame at h
    split at h
    · cases h
      refine (storeFrame_quiet s _ _).trans ⟨rfl, rfl, rfl, id, fun hr => hr.raise ?_⟩
      unfold Within
      decide
    · cases h
  · cases h
    exact .of_same rfl rfl rfl

theorem onWindowEvent_quiet {w : RxWindow} {e : Event} (h : onWindowEvent w sn e s = .next t) : Quiet s t := by
  unfold onWindowEvent at h
  split at h
  · exact onAttemptFrame_quiet (windowResult_legal w) h
  · cases h
    exact outcome_quiet s (by decide)
  · cases h
    exact closeWindow_quiet s

theorem onAttemptRxC_quiet {e : Event} (h : onAttemptRxC sn e s = .next t) : Quiet s t := by
  unfold onAttemptRxC at h
  split at h
  · exact onAttemptFrame_quiet (windowResult_legal .rxC) h
  · cases h
    exact .of_same rfl rfl rfl

/-- Every event of an attempt but TX_DONE is quiet. -/
theorem onAttemptEvent_quiet {p : Pending} {e : Event} (h : onAttemptEvent p sn e s = .next t) :
    Quiet s t ∨ (e = .txDone ∧ t = onTxDone sn s) := by
  unfold onAttemptEvent at h
  split at h
  · exact .inl (onRandom_quiet h)
  · exact .inl (onCad_quiet h)
  · exact .inl (onCad_quiet h)
  · cases h
    exact .inr ⟨rfl, rfl⟩
  · cases h
    exact .inl (outcome_quiet s (by decide))
  all_goals
    split at h
    · exact .inl (onAttemptRxC_quiet h)
    · exact .inl (onWindowEvent_quiet h)
    · cases h

/-- An event is quiet unless it is the TX_DONE of a transmission (R262). -/
theorem radioEvent_quiet {e : Event} (h : radioEvent e s = .next t) :
    Quiet s t ∨ (e = .txDone ∧ s.sched.fsm = .transmitting ∧ ∃ sn, s.sched.snap = some sn ∧
      t = onTxDone sn { s with radioPending := .none }) := by
  have hfree : Quiet s { s with radioPending := .none } := .of_same rfl rfl rfl
  unfold radioEvent at h
  split at h
  · cases h
    exact .inl (.of_same rfl rfl rfl)
  next hm =>
  split at h
  · cases h
  next hp =>
  dsimp only at h
  split at h
  · exact .inl (hfree.trans (onIdleRxC_quiet h))
  · next sn hs _ =>
    refine (onAttemptEvent_quiet h).imp hfree.trans fun ⟨he, ht⟩ => ⟨he, ?_, sn, hs, ht⟩
    subst he
    cases hpend : s.radioPending <;> rw [hpend] at hm hp <;> simp [eventMatches, requestInPhase] at hm hp
    exact hp
  · cases h

end

end Sys2Proof.Machine
end

section
/-! PROOFS of the family 10_state.
The frames of the commands (R30, R57, R303, R347). -/

namespace Sys2Proof.Machine

/-! ### Commands: frames and the invariant -/

/-- A command's effects: those of a command that computes, or one of the five that do more. -/
theorem CommandEffect.cases {i : Instr} {s u : State} (h : CommandEffect i s u) :
    Computes (writesKeys i) (writesRam i) s u ∨
    (i = .wipe ∧ s.sched.fsm = .idle ∧ u = wipeState s) ∨
    (i = .softReset ∧ s.sched.fsm = .idle ∧ u = softResetState (closeRxC s)) ∨
    (∃ rev n c v, i = .parseDownlink rev n ∧ Computes false true (commitCounter c v s) u) ∨
    (∃ rev n p, i = .parseJoinacc rev n ∧ s.sched.fsm = .idle ∧ u = commitJoin p n s) ∨
    ∃ retx rdelay, i = .send retx rdelay ∧ SendAccepted rdelay s ∧ u = startAttempt (takeSnapshot retx rdelay s) s := by
  cases i with
  | wipe => exact .inr (.inl ⟨rfl, h⟩)
  | softReset => exact .inr (.inr (.inl ⟨rfl, h⟩))
  | parseDownlink rev n =>
    obtain ⟨c, v, hc⟩ := h
    exact .inr (.inr (.inr (.inl ⟨rev, n, c, v, rfl, hc⟩)))
  | parseJoinacc rev n =>
    obtain ⟨hf, p, hp⟩ := h
    exact .inr (.inr (.inr (.inr (.inl ⟨rev, n, p, rfl, hf, hp⟩))))
  | send retx rdelay => exact .inr (.inr (.inr (.inr (.inr ⟨retx, rdelay, rfl, h⟩))))
  | _ => exact .inl h

theorem startAttempt_radioOnly (sn : Snapshot) (s : State) :
    RadioOnly { s with regs := { s.regs with sendResult := 0 } } (startAttempt sn s) := by
  have henter : RadioOnly { s with regs := { s.regs with sendResult := 0 } } (enterGuard sn s) := by
    constructor <;> simp [enterGuard]
  obtain ⟨hr, hk, hm, hb, hi, ho⟩ := henter
  unfold startAttempt
  dsimp only
  split
  · exact ⟨hr, hk, hm, hb, hi, ho⟩
  · obtain ⟨hr', hk', hm', hb', hi', ho'⟩ := startCsma_radioOnly sn (enterGuard sn s)
    exact ⟨hr'.trans hr, hk'.trans hk, hm'.trans hm, hb'.trans hb, hi'.trans hi, ho'.trans ho⟩

theorem commitCounter_regs (c : Context) (v : Word) (s : State) :
    ∃ nf af mc, (commitCounter c v s).regs = { s.regs with
      dnValid := s.regs.dnValid ||| word (2 ^ contextNumber c), nfCntDn := nf, afCntDn := af, mcfCnt := mc } := by
  cases c
  · exact ⟨v, _, _, rfl⟩
  · exact ⟨_, v, _, rfl⟩
  · exact ⟨_, _, v, rfl⟩

/-- What no command's effects touch (R57, R74, R347). -/
theorem CommandEffect.keeps {i : Instr} {s u : State} (h : CommandEffect i s u) :
    u.regs.now = s.regs.now ∧ u.busFault = s.busFault ∧ u.inputs = s.inputs ∧ u.busOut = s.busOut := by
  rcases h.cases with hc | ⟨-, -, rfl⟩ | ⟨-, -, rfl⟩ | ⟨_, _, c, v, -, hc⟩ | ⟨_, _, p, -, -, rfl⟩ | ⟨retx, rdelay, -, -, rfl⟩
  · exact ⟨by rw [hc.regs], hc.busFault, hc.inputs, hc.busOut⟩
  · exact ⟨rfl, rfl, rfl, rfl⟩
  · simp [softResetState]
  · obtain ⟨nf, af, mc, hr⟩ := commitCounter_regs c v s
    exact ⟨by rw [hc.regs, hr], hc.busFault, hc.inputs, hc.busOut⟩
  · exact ⟨rfl, rfl, rfl, rfl⟩
  · have hs := startAttempt_radioOnly (takeSnapshot retx rdelay s) s
    exact ⟨by rw [hs.regs], hs.busFault, hs.inputs, hs.busOut⟩

/-- What no command touches (R57, R74, R347). -/
theorem exec_keeps {i : Instr} {s t : State} (h : exec i s = .next t) :
    t.regs.now = s.regs.now ∧ t.busFault = s.busFault ∧ t.inputs = s.inputs ∧ t.busOut = s.busOut := by
  rcases exec_ends h with ⟨u, hu, rfl⟩ | ⟨c, -, -, rfl⟩
  · exact hu.keeps
  · exact ⟨rfl, rfl, rfl, rfl⟩

/-- Registers that read alike, from equal words. -/
theorem readReg_eq_of_map {L : List Reg} {s t : State} (hL : ∀ r ∈ L, derivedReg r = false)
    (h : L.map (storedWord · t.regs) = L.map (storedWord · s.regs)) : ∀ r ∈ L, readReg t r = readReg s r := by
  intro r hr
  rw [readReg_eq_storedWord t (hL r hr), readReg_eq_storedWord s (hL r hr)]
  exact List.map_inj_left.1 h r hr

/-- The session registers of R29, R35 and R36. -/
def sessionRegs : List Reg := [.devAddr, .lastJn, .nfCntDn, .afCntDn, .mcfCnt, .dnValid]

/-- CMD and the operand and configuration registers (R24, R26, R28, R30, R34, R42-R53). -/
def configRegs : List Reg :=
  [.cmd, .irqEn, .src, .dst, .fcnt, .aux0, .aux1, .aux2, .aux3, .joinEuiLo, .joinEuiHi, .devEuiLo, .devEuiHi,
    .schedCtrl, .dcMsph, .csmaCfg, .rx1Delay, .rx2Delay, .txBuf, .txFreq, .txDr, .rx1Freq, .rx1Dr, .rx2Freq, .rx2Dr,
    .rxBuf, .retxCfg, .guardMs]

/-- What a command's effects may change, by the four kinds of command that have them. -/
structure EffectFrame (i : Instr) (s u : State) : Prop where
  keys : writesKeys i = false → u.keys = s.keys
  ram : writesRam i = false → u.ram = s.ram
  session : writesSession i = false → sessionRegs.map (storedWord · u.regs) = sessionRegs.map (storedWord · s.regs)
  sched : drivesScheduler i = false → u.sched = s.sched ∧ u.radioPending = s.radioPending ∧ u.radioOut = s.radioOut
  config : i ≠ .softReset → configRegs.map (storedWord · u.regs) = configRegs.map (storedWord · s.regs)

theorem CommandEffect.frame {i : Instr} {s u : State} (h : CommandEffect i s u) : EffectFrame i s u := by
  rcases h.cases with hc | ⟨rfl, -, rfl⟩ | ⟨rfl, -, rfl⟩ | ⟨_, _, c, v, rfl, hc⟩ | ⟨_, _, p, rfl, -, rfl⟩ |
    ⟨retx, rdelay, rfl, -, rfl⟩
  · exact ⟨hc.keys, hc.ram, fun _ => by rw [hc.regs]; rfl, fun _ => ⟨hc.sched, hc.radioPending, hc.radioOut⟩,
      fun _ => by rw [hc.regs]; rfl⟩
  · exact ⟨nofun, fun _ => rfl, nofun, fun _ => ⟨rfl, rfl, rfl⟩, fun _ => rfl⟩
  · exact ⟨nofun, fun _ => closeRxC_ram s, nofun, nofun, fun hne => absurd rfl hne⟩
  · obtain ⟨nf, af, mc, hr⟩ := commitCounter_regs c v s
    exact ⟨fun _ => hc.keys rfl, nofun, nofun, fun _ => ⟨hc.sched, hc.radioPending, hc.radioOut⟩,
      fun _ => by rw [hc.regs, hr]; rfl⟩
  · exact ⟨fun _ => rfl, nofun, nofun, fun _ => ⟨rfl, rfl, rfl⟩, fun _ => rfl⟩
  · have hs := startAttempt_radioOnly (takeSnapshot retx rdelay s) s
    exact ⟨fun _ => hs.keys, fun _ => hs.ram, fun _ => by rw [hs.regs]; rfl, nofun, fun _ => by rw [hs.regs]; rfl⟩

end Sys2Proof.Machine
end

section
/-! PROOFS of the family 10_state.
Commands, accesses and steps keep the invariant; the counters, the windows and the words a host reads. -/

namespace Sys2Proof.Machine

/-! ### Issuing a command -/

/-- Issuing a word ends: with the effects of the command it decodes to, or with a code and no effect but CMD's (R101). -/
theorem issueCommand_ends (w : Word) (s : State) :
    ∃ t, issueCommand w s = .next t ∧
      ((∃ i u, decode w = .ok i ∧ CommandEffect i { s with regs := { s.regs with cmd := w } } u ∧ t = epilogue .ok u) ∨
        ∃ c, codeNumber c ≤ 12 ∧ t = epilogue c { s with regs := { s.regs with cmd := w } }) := by
  unfold issueCommand
  cases hd : decode w with
  | error e => exact ⟨_, rfl, .inr ⟨.illegal, by decide, rfl⟩⟩
  | ok i =>
    obtain ⟨t, ht⟩ := exec_isNext i { s with regs := { s.regs with cmd := w } }
    refine ⟨t, ht, ?_⟩
    rcases exec_ends ht with ⟨u, hu, rfl⟩ | ⟨c, -, hc, rfl⟩
    · exact .inl ⟨i, u, rfl, hu, rfl⟩
    · exact .inr ⟨c, hc, rfl⟩

/-- What issuing a command never touches. -/
theorem issueCommand_keeps {w : Word} {s t : State} (h : issueCommand w s = .next t) :
    t.regs.now = s.regs.now ∧ t.busFault = s.busFault ∧ t.inputs = s.inputs ∧ t.busOut = s.busOut := by
  obtain ⟨t', ht, hcases⟩ := issueCommand_ends w s
  obtain rfl : t' = t := by rw [h] at ht; cases ht; rfl
  rcases hcases with ⟨i, u, -, hu, rfl⟩ | ⟨c, -, rfl⟩
  · exact hu.keeps
  · exact ⟨rfl, rfl, rfl, rfl⟩

/-! ### Commands keep the invariant -/

theorem leVal_slice_lt (p : Bytes) (i j : Nat) : leVal (slice p i j) < 256 ^ (j - i) := by
  refine lt_of_lt_of_le (leVal_lt _) (Nat.pow_le_pow_right (by decide) ?_)
  rw [slice, List.length_drop, List.length_take]
  omega

theorem commitJoin_legal {s : State} (h : RegsLegal s.regs) (p : Bytes) (n : Nat) : RegsLegal (commitJoin p n s).regs := by
  have hjn : leVal (slice p 1 4) < 2 ^ 24 := leVal_slice_lt p 1 4
  have hlast : Within (word (2 ^ 31 + leVal (slice p 1 4))) (implementedBits .lastJn) := by
    have := word_add_eq_or (a := 1) (k := 31) (b := leVal (slice p 1 4)) (by omega)
    rw [Nat.mul_one] at this
    rw [this]
    exact Within.or (by unfold Within; decide) (within_word hjn (by decide))
  have hbit : bit s.regs.dnValid 2 < 2 := Nat.mod_lt _ (by decide)
  have hvalid : Within (word (bit s.regs.dnValid 2 * 2 ^ 2)) (implementedBits .dnValid) :=
    within_word (n := 3) (by omega) (by decide)
  exact ((h.put (r := .lastJn) rfl hlast nofun).put (r := .dnValid) rfl hvalid nofun).congr rfl rfl

theorem wipeState_legal {s : State} (h : RegsLegal s.regs) : RegsLegal (wipeState s).regs :=
  ((h.put (r := .lastJn) rfl (within_zero _) nofun).put (r := .dnValid) rfl (within_zero _) nofun).congr rfl rfl

theorem commitCounter_legal {s : State} (h : RegsLegal s.regs) (c : Context) (v : Word) :
    RegsLegal (commitCounter c v s).regs := by
  have hbit : Within (word (2 ^ contextNumber c)) (implementedBits .dnValid) := by
    unfold Within
    cases c <;> decide
  obtain ⟨nf, af, mc, hr⟩ := commitCounter_regs c v s
  rw [hr]
  exact (h.put (r := .dnValid) rfl ((h.reserved .dnValid (by decide)).or hbit) nofun).congr rfl rfl

theorem resetRegs_legal (n : Word) : RegsLegal { Regs.reset with now := n } := by
  refine ⟨?_, Nat.zero_le 12, List.mem_cons_self⟩
  have hzero : ∀ r ∈ narrowRegs, storedWord r { Regs.reset with now := n } = 0 := by
    simp [narrowRegs, storedWord, Regs.reset]
  intro r hr
  rw [hzero r hr]
  exact within_zero _

theorem Computes.legal {k m : Bool} {s u : State} (h : Computes k m s u) (hr : RegsLegal s.regs) : RegsLegal u.regs := by
  rw [h.regs]
  exact hr.congr rfl rfl

/-- The scheduler's invariant after a command that does not drive it. -/
theorem Computes.schedInv {k m : Bool} {s u : State} (h : Computes k m s u) (hs : SchedInv s) : SchedInv u := by
  refine hs.congr h.sched h.radioPending (fun _ _ => ?_) ?_
  · rw [ctrlClass, h.regs]; rfl
  · rw [h.regs]; exact id

theorem CommandEffect.inv {i : Instr} {s u : State} (h : CommandEffect i s u) (hi : Inv s) : Inv u := by
  obtain ⟨hm, hr, hs⟩ := (inv_iff s).1 hi
  rw [inv_iff]
  rcases h.cases with hc | ⟨-, hf, rfl⟩ | ⟨-, hf, rfl⟩ | ⟨_, _, c, v, -, hc⟩ | ⟨_, n, p, -, hf, rfl⟩ |
    ⟨retx, rdelay, -, ha, rfl⟩
  · exact ⟨hc.memory hm, hc.legal hr, hc.schedInv hs⟩
  · exact ⟨hm, wipeState_legal hr, hs.congr rfl rfl (fun _ _ => rfl) id⟩
  · refine ⟨?_, resetRegs_legal _, IdleShape.schedInv ⟨rfl, rfl, rfl, rfl, .inl rfl⟩⟩
    simpa [softResetState] using hm
  · have hctrl : ctrlClass (commitCounter c v s) = ctrlClass s := by cases c <;> rfl
    have hpend : (commitCounter c v s).regs.rxPend = s.regs.rxPend := by cases c <;> rfl
    exact ⟨hc.memory hm, hc.legal (commitCounter_legal hr c v),
      hc.schedInv (hs.congr rfl rfl (fun _ _ => hctrl) fun hx => hpend ▸ hx)⟩
  · exact ⟨memWrite_wf s _ _ hm, commitJoin_legal hr p n, hs.congr rfl rfl (fun _ _ => rfl) id⟩
  · have hro := startAttempt_radioOnly (takeSnapshot retx rdelay s) s
    refine ⟨?_, ?_, (startAttempt_shape (takeSnapshot_legal ha) (hs.idleShape ha.idle) ha.noFrame).schedInv⟩
    · rw [hro.ram]; exact hm
    · rw [hro.regs]; exact hr.putResult (by decide)

theorem epilogue_inv {s : State} {c : Code} (hc : codeNumber c ≤ 12) (h : Inv s) : Inv (epilogue c s) := by
  obtain ⟨hm, hr, hs⟩ := (inv_iff s).1 h
  exact (inv_iff _).2 ⟨hm, hr.epilogue hc, hs.congr rfl rfl (fun _ _ => rfl) id⟩

theorem issueCommand_inv {w : Word} {s : State} (h : Inv s) : ∃ t, issueCommand w s = .next t ∧ Inv t := by
  obtain ⟨hm, hr, hs⟩ := (inv_iff s).1 h
  have hcmd : Inv { s with regs := { s.regs with cmd := w } } :=
    (inv_iff _).2 ⟨hm, hr.congr rfl rfl, hs.congr rfl rfl (fun _ _ => rfl) id⟩
  obtain ⟨t, ht, ⟨i, u, -, hu, rfl⟩ | ⟨c, hc, rfl⟩⟩ := issueCommand_ends w s
  · exact ⟨_, ht, epilogue_inv (by decide) (hu.inv hcmd)⟩
  · exact ⟨_, ht, epilogue_inv hc hcmd⟩

/-! ### Host accesses keep the invariant -/

theorem putReg_schedCtrl {r : Reg} (h : r ≠ .schedCtrl) (v : Word) (g : Regs) :
    (putReg r v g).schedCtrl = g.schedCtrl := by
  cases r <;> first | rfl | exact absurd rfl h

/-- Changing SCHED_CTRL.CLASS: leaving Class C closes an idle RxC, and an attempt follows its snapshot (R280, R281). -/
theorem leaveClassC_schedInv {s t : State} (h : SchedInv s) (hs : t.sched = s.sched)
    (hp : t.radioPending = s.radioPending) (hx : t.regs.rxPend = s.regs.rxPend) : SchedInv (leaveClassC t) := by
  rw [leaveClassC_eq, hs, hp]
  split
  next hclose =>
    have hi := h.idleShape hclose.1
    exact IdleShape.schedInv ⟨hs ▸ hi.fsm, hs ▸ hi.snap, hs ▸ hi.phase, hs ▸ hi.acc, .inl rfl⟩
  next hkeep =>
    refine h.congr hs hp (fun hf hrx => ?_) fun hx' => hx ▸ hx'
    have hc : ctrlClass t = 2 := by
      by_contra hc
      exact hkeep ⟨hf, hrx, hc⟩
    have hcls := (h.rxC hrx).2
    rw [applicableClass, if_pos hf] at hcls
    rw [hc, hcls]

theorem writeReg_schedInv {s : State} (h : SchedInv s) (r : Reg) (v : Word) : SchedInv (writeReg r v s) := by
  by_cases hs : r = .status
  · subst hs
    rw [writeReg_status]
    exact h.congr rfl rfl (fun _ _ => rfl) fun hx => (Bool.and_eq_true_iff.1 hx).1
  by_cases hi : r = .irqStat
  · subst hi
    exact h.congr rfl rfl (fun _ _ => rfl) id
  by_cases hc : r = .schedCtrl
  · subst hc
    exact leaveClassC_schedInv h rfl rfl rfl
  rw [writeReg_plain hs hi hc]
  split
  · exact h
  · refine h.congr rfl rfl (fun _ _ => ?_) ?_
    · exact congrArg (bits · 1 0) (putReg_schedCtrl hc _ _)
    · rw [writeFields, putReg_rxPend]; exact id

theorem writeKeyBytes_eq (bs : Bytes) (k : Nat) (s : State) :
    writeKeyBytes k bs s = { s with keys := (writeKeyBytes k bs s).keys } := by
  induction bs generalizing k s with
  | nil => rfl
  | cons b bs ih => exact ih (k + 1) _

/-- The invariant does not read the keys, the fault mark, the inputs or the outputs. -/
theorem Inv.congr {s t : State} (h : Inv s) (hm : t.ram = s.ram) (hr : t.regs = s.regs) (hs : t.sched = s.sched)
    (hp : t.radioPending = s.radioPending) : Inv t := by
  obtain ⟨him, hir, his⟩ := (inv_iff s).1 h
  refine (inv_iff t).2 ⟨hm ▸ him, hr ▸ hir, his.congr hs hp (fun _ _ => ?_) fun hx => hr ▸ hx⟩
  rw [ctrlClass, ctrlClass, hr]

theorem writeReg_inv {s : State} (h : Inv s) (r : Reg) (v : Word) : Inv (writeReg r v s) := by
  obtain ⟨hm, hr, hs⟩ := (inv_iff s).1 h
  obtain ⟨-, hram, -⟩ := writeReg_frame r v s
  exact (inv_iff _).2 ⟨hram ▸ hm, hr.writeReg r v, writeReg_schedInv hs r v⟩

theorem WriteEffect.inv {s : State} {a : Access} {o : Host.Outcome State Fault Refusal} (h : WriteEffect s a o)
    (hi : Inv s) : ∃ t, o = .next t ∧ Inv t := by
  cases h with
  | register off v r => exact ⟨_, rfl, writeReg_inv hi r v⟩
  | command v => exact issueCommand_inv hi
  | keys w off v k bs =>
    refine ⟨_, rfl, ?_⟩
    rw [writeKeyBytes_eq]
    exact hi.congr rfl rfl rfl rfl
  | ram w off v a bs =>
    obtain ⟨hm, hr, hs⟩ := (inv_iff _).1 hi
    exact ⟨_, rfl, (inv_iff _).2 ⟨memWrite_wf _ a bs hm, hr, hs.congr rfl rfl (fun _ _ => rfl) id⟩⟩
  | ignored w off v => exact ⟨_, rfl, hi⟩

theorem hostAccess_inv {s : State} (h : Inv s) (a : Access) : ∃ t, hostAccess a s = .next t ∧ Inv t := by
  generalize ho : hostAccess a s = o
  have heff : HostEffect s a o := ho ▸ hostAccess_effect a s
  cases heff with
  | fault => exact ⟨_, rfl, h.congr rfl rfl rfl rfl⟩
  | read w off d => exact ⟨_, rfl, h.congr rfl rfl rfl rfl⟩
  | write _ _ hw => exact hw.inv (h.congr rfl rfl rfl rfl)

/-! ### Every step keeps the invariant -/

theorem runUrgent_inv {s : State} (h : Inv s) {u : Urgent} (hu : urgentGuard s u = true) :
    ∃ t, runUrgent u s = .next t ∧ Inv t := by
  obtain ⟨hm, hr, hs⟩ := (inv_iff s).1 h
  obtain ⟨t, ht, hst⟩ := runUrgent_schedInv hs hu
  have hq := runUrgent_quiet ht
  exact ⟨t, ht, (inv_iff t).2 ⟨hq.memory hm, hq.regs hr, hst⟩⟩

theorem onTxDone_legal {s : State} (h : RegsLegal s.regs) (sn : Snapshot) : RegsLegal (onTxDone sn s).regs :=
  h.congr rfl rfl

theorem radioEvent_inv {s : State} (h : Inv s) (e : Event) : ∃ t, radioEvent e s = .next t ∧ Inv t := by
  obtain ⟨hm, hr, hs⟩ := (inv_iff s).1 h
  obtain ⟨t, ht, hst⟩ := radioEvent_schedInv hs e
  refine ⟨t, ht, (inv_iff t).2 ?_⟩
  rcases radioEvent_quiet ht with hq | ⟨-, -, sn, -, rfl⟩
  · exact ⟨hq.memory hm, hq.regs hr, hst⟩
  · exact ⟨hm, onTxDone_legal hr sn, hst⟩

theorem clockStep_inv {s : State} (h : Inv s) : Inv (clockStep s) := by
  obtain ⟨hm, hr, hs⟩ := (inv_iff s).1 h
  exact (inv_iff _).2 ⟨hm, hr.congr rfl rfl, hs.congr rfl rfl (fun _ _ => rfl) id⟩

theorem takeInput_inv {s : State} (h : Inv s) : ∃ t, takeInput s = .next t ∧ Inv t := by
  have hrest (rest : List Input) : Inv { s with inputs := rest } := h.congr rfl rfl rfl rfl
  unfold takeInput
  split
  · exact ⟨_, rfl, clockStep_inv h⟩
  · exact ⟨_, rfl, clockStep_inv (hrest _)⟩
  · exact hostAccess_inv (hrest _) _
  · exact radioEvent_inv (hrest _) _

/-! ### Counters -/

theorem storedWord_now (g : Regs) : storedWord .now g = g.now := rfl

theorem storedWord_fcntUp (g : Regs) : storedWord .fcntUp g = g.fcntUp := rfl

/-- NOW has no RW bits (R52). -/
theorem writeReg_now (r : Reg) (v : Word) (s : State) : (writeReg r v s).regs.now = s.regs.now := by
  rw [← storedWord_now, ← storedWord_now]
  by_cases hr : r = .now
  · subst hr
    show storedWord .now (writeFields .now v s).regs = _
    rw [storedWord_writeFields s v rfl rfl, if_pos rfl]
    exact fieldWrite_zero _ _
  · exact storedWord_writeReg_ne rfl (Ne.symm hr) v s

/-- FCNTUP takes the word written to it while Idle, and no other register write moves it (R45). -/
theorem writeReg_fcntUp {r : Reg} {v : Word} {s : State} (h : (writeReg r v s).regs.fcntUp ≠ s.regs.fcntUp) :
    r = .fcntUp ∧ s.sched.fsm = .idle ∧ (writeReg r v s).regs.fcntUp = v := by
  have hr : r = .fcntUp := by
    by_contra hne
    exact h (storedWord_writeReg_ne (q := .fcntUp) rfl (Ne.symm hne) v s)
  subst hr
  have hplain : writeReg .fcntUp v s = if sbusy s then s else writeFields .fcntUp v s := rfl
  rw [hplain] at h ⊢
  split at h
  · exact absurd rfl h
  next hidle =>
    rw [if_neg hidle]
    refine ⟨rfl, idle_of_not_sbusy hidle, ?_⟩
    rw [← storedWord_fcntUp, storedWord_writeFields s v rfl rfl, if_pos rfl]
    exact fieldWrite_allOnes _ _

/-- A command moves FCNTUP only as a wipe, a reset or an accepted join, each of them while Idle (R45). -/
theorem CommandEffect.fcntUp {i : Instr} {s u : State} (h : CommandEffect i s u)
    (hne : u.regs.fcntUp ≠ s.regs.fcntUp) :
    s.sched.fsm = .idle ∧ u.regs.fcntUp = 0 ∧ (i = .wipe ∨ i = .softReset ∨ ∃ rev n, i = .parseJoinacc rev n) := by
  rcases h.cases with hc | ⟨hi, hf, rfl⟩ | ⟨hi, hf, rfl⟩ | ⟨_, _, c, v, -, hc⟩ | ⟨rev, n, p, hi, hf, rfl⟩ |
    ⟨retx, rdelay, -, -, rfl⟩
  · rw [hc.regs] at hne
    exact absurd rfl hne
  · exact ⟨hf, rfl, .inl hi⟩
  · exact ⟨hf, rfl, .inr (.inl hi)⟩
  · obtain ⟨nf, af, mc, hr⟩ := commitCounter_regs c v s
    rw [hc.regs, hr] at hne
    exact absurd rfl hne
  · exact ⟨hf, rfl, .inr (.inr ⟨rev, n, hi⟩)⟩
  · rw [(startAttempt_radioOnly (takeSnapshot retx rdelay s) s).regs] at hne
    exact absurd rfl hne

/-- How a host access can move FCNTUP from `s` to `t`: by a write of the register or by a command (R45). -/
def HostMovesFcntUp (a : Access) (s t : State) : Prop :=
  s.sched.fsm = .idle ∧ ∃ off v, a = .write .w32 off v ∧
    ((off = 0x090 ∧ t.regs.fcntUp = v) ∨
      (off = 0x000 ∧ t.regs.fcntUp = 0 ∧ t.regs.err = .ok ∧
        (decode v = .ok .wipe ∨ decode v = .ok .softReset ∨ ∃ rev n, decode v = .ok (.parseJoinacc rev n))))

theorem issueCommand_fcntUp {w : Word} {s t : State} (h : issueCommand w s = .next t)
    (hne : t.regs.fcntUp ≠ s.regs.fcntUp) : HostMovesFcntUp (.write .w32 0x000 w) s t := by
  obtain ⟨t', ht, hcases⟩ := issueCommand_ends w s
  obtain rfl : t' = t := by rw [h] at ht; cases ht; rfl
  rcases hcases with ⟨i, u, hd, hu, rfl⟩ | ⟨c, -, rfl⟩
  · obtain ⟨hf, hzero, hi⟩ := hu.fcntUp hne
    refine ⟨hf, _, _, rfl, .inr ⟨rfl, hzero, rfl, ?_⟩⟩
    rcases hi with rfl | rfl | ⟨rev, n, rfl⟩
    · exact .inl hd
    · exact .inr (.inl hd)
    · exact .inr (.inr ⟨rev, n, hd⟩)
  · exact absurd rfl hne

/-- A write that the window allows ends, leaves the fault mark and NOW, and moves FCNTUP as R45 lists. -/
theorem WriteEffect.counters {s : State} {a : Access} {o : Host.Outcome State Fault Refusal} (h : WriteEffect s a o) :
    ∃ t, o = .next t ∧ t.busFault = s.busFault ∧ t.busOut = s.busOut ∧ t.regs.now = s.regs.now ∧
      (t.regs.fcntUp ≠ s.regs.fcntUp → HostMovesFcntUp a s t) := by
  cases h with
  | register off v r hr hc =>
    obtain ⟨-, -, -, hb, -, hout⟩ := writeReg_frame r v s
    refine ⟨_, rfl, hb, hout, writeReg_now _ _ _, fun hne => ?_⟩
    obtain ⟨rfl, hf, hv⟩ := writeReg_fcntUp hne
    exact ⟨hf, off, v, rfl, .inl ⟨BitVec.eq_of_toNat_eq (regAt_injective hr (b := 0x090) rfl), hv⟩⟩
  | command v =>
    obtain ⟨t, ht, -⟩ := issueCommand_ends v s
    obtain ⟨hn, hb, -, hout⟩ := issueCommand_keeps ht
    exact ⟨t, ht, hb, hout, hn, issueCommand_fcntUp ht⟩
  | keys w off v k bs =>
    rw [writeKeyBytes_eq]
    exact ⟨_, rfl, rfl, rfl, rfl, fun hne => absurd rfl hne⟩
  | ram w off v a bs => exact ⟨_, rfl, rfl, rfl, rfl, fun hne => absurd rfl hne⟩
  | ignored w off v => exact ⟨_, rfl, rfl, rfl, rfl, fun hne => absurd rfl hne⟩

theorem hostAccess_counters {a : Access} {s t : State} (h : hostAccess a s = .next t) :
    (s.busFault = true → t.busFault = true) ∧ t.regs.now = s.regs.now ∧
      (t.regs.fcntUp ≠ s.regs.fcntUp → HostMovesFcntUp a s t) := by
  generalize ho : Host.Outcome.next t = o at h
  have heff : HostEffect s a o := h ▸ hostAccess_effect a s
  cases heff with
  | fault => cases ho; exact ⟨fun _ => rfl, rfl, fun hne => absurd rfl hne⟩
  | read w off d => cases ho; exact ⟨id, rfl, fun hne => absurd rfl hne⟩
  | write _ _ hw =>
    obtain ⟨t', rfl, hb, -, hn, hf⟩ := hw.counters
    cases ho
    exact ⟨fun hs => hb.trans hs, hn, hf⟩

theorem takeInput_nil {s : State} (h : s.inputs = []) :
    takeInput (taken s s.inputs) = .next (clockStep (taken s [])) := by rw [h]; rfl

theorem takeInput_clock {s : State} {rest : List Input} (h : s.inputs = .clock :: rest) :
    takeInput (taken s s.inputs) = .next (clockStep (taken s rest)) := by rw [h]; rfl

theorem takeInput_host {s : State} {a : Access} {rest : List Input} (h : s.inputs = .host a :: rest) :
    takeInput (taken s s.inputs) = hostAccess a (taken s rest) := by rw [h]; rfl

theorem takeInput_radio {s : State} {e : Event} {rest : List Input} (h : s.inputs = .radio e :: rest) :
    takeInput (taken s s.inputs) = radioEvent e (taken s rest) := by rw [h]; rfl

/-! ### Windows (R38, R39, R41, R70) -/

theorem leBytes_getElem? (n v i : Nat) :
    (leBytes n v)[i]? = if i < n then some (BitVec.ofNat 8 (v / 256 ^ i)) else none := by
  induction n generalizing v i with
  | zero => simp [leBytes]
  | succ n ih =>
    cases i with
    | zero => simp [leBytes]
    | succ i =>
      rw [leBytes, List.getElem?_cons_succ, ih, Nat.div_div_eq_div_mul, ← Nat.pow_succ']
      simp

/-- The bytes of a word written, as a list by index. -/
theorem leBytes_eq_ofFn (n v : Nat) : leBytes n v = List.ofFn fun i : Fin n => BitVec.ofNat 8 (v / 256 ^ i.val) := by
  apply List.ext_getElem?
  intro i
  rw [leBytes_getElem?, List.getElem?_ofFn]
  split <;> simp [*]

/-- A little-endian read is the sum of its bytes' place values. -/
theorem leVal_memRead (s : State) (a n : Nat) :
    leVal (memRead s a n) = ((List.range n).map fun i => (ramByte s (a + i)).toNat * 256 ^ i).sum := by
  induction n generalizing a with
  | zero => rfl
  | succ n ih =>
    have hcons : memRead s a (n + 1) = ramByte s a :: memRead s (a + 1) n := by
      simp [memRead, List.range_succ_eq_map, Function.comp_def, Nat.add_assoc, Nat.add_comm 1]
    rw [hcons, leVal, ih, List.range_succ_eq_map]
    simp [Function.comp_def, Nat.add_assoc, Nat.add_comm 1, Nat.pow_succ', List.sum_map_mul_left, Nat.mul_left_comm]

theorem widthBytes_le (w : Width) : widthBytes w ≤ 4 := by cases w <;> decide

/-- An aligned access that starts below a multiple of 4 ends there at the latest. -/
theorem access_end_le {w : Width} {off n : Nat} (ha : off % widthBytes w = 0) (hn : n % 4 = 0) (h : off < n) :
    off + widthBytes w ≤ n := by
  cases w <;> simp only [widthBytes] at * <;> omega

theorem accessAllowed_of_window {w : Width} {off : Nat} (ha : off % widthBytes w = 0) (h : 0x100 ≤ off) :
    accessAllowed w off = true :=
  (accessAllowed_iff w off).2 ⟨ha, fun hlt => absurd h (by omega)⟩

/-- Place `k` of the key window is byte `k mod 16` of slot `k / 16` (R39). -/
theorem key_setKey_byte (s : State) {k : Nat} (hk : k < 128) (b : Byte) (n m : Fin 8) (hm : m.val = k / 16 % 8)
    (hj : k % 16 < 16) (j : Fin 16) :
    (key (setKey s m ((key s m).set (k % 16) b hj)) n)[j] = if 16 * n.val + j.val = k then b else (key s n)[j] := by
  rw [key_setKey]
  by_cases hn : n = m
  · subst hn
    rw [if_pos rfl, Fin.getElem_fin, Vector.getElem_set]
    by_cases he : k % 16 = j.val
    · rw [if_pos he, if_pos (by omega)]
    · rw [if_neg he, if_neg (by omega), Fin.getElem_fin]
  · have hne : n.val ≠ m.val := fun he => hn (Fin.ext he)
    rw [if_neg hn, if_neg (by omega)]

/-- A key byte after a write of bytes from place `k` of the window: the byte written there, else the old one (R39). -/
theorem writeKeyBytes_byte (bs : Bytes) (k : Nat) (s : State) (h : k + bs.length ≤ 128) (n : Fin 8) (j : Fin 16) :
    (key (writeKeyBytes k bs s) n)[j] =
      if k ≤ 16 * n.val + j.val ∧ 16 * n.val + j.val < k + bs.length then bs.getD (16 * n.val + j.val - k) 0
      else (key s n)[j] := by
  induction bs generalizing k s with
  | nil =>
    rw [if_neg (by rw [List.length_nil]; omega)]
    rfl
  | cons b bs ih =>
    rw [List.length_cons] at h ⊢
    rw [writeKeyBytes, ih (k + 1) _ (by omega), key_setKey_byte s (by omega) b n _ rfl]
    by_cases hk : 16 * n.val + j.val = k
    · rw [if_neg (by omega), if_pos hk, if_pos (by omega), hk, Nat.sub_self, List.getD_cons_zero]
    by_cases hin : k + 1 ≤ 16 * n.val + j.val ∧ 16 * n.val + j.val < k + 1 + bs.length
    · have hsub : 16 * n.val + j.val - k = 16 * n.val + j.val - (k + 1) + 1 := by omega
      rw [if_pos hin, if_pos (by omega), hsub, List.getD_cons_succ]
    · rw [if_neg hin, if_neg hk, if_neg (by omega)]

/-! ### Reserved offsets (R22, R72-R74) -/

/-- The offsets that hold nothing: unlisted ones of the register region and the reserved regions (R22, R70). -/
def ReservedOffset (off : Nat) : Prop :=
  (0x070 ≤ off ∧ off < 0x080) ∨ (0x0D4 ≤ off ∧ off < 0x100) ∨ (0x180 ≤ off ∧ off < 0x200) ∨ 0x400 ≤ off

theorem readData_reservedOffset {off : Nat} (h : ReservedOffset off) (w : Width) (s : State) : readData w off s = 0 := by
  unfold ReservedOffset at h
  rcases lt_or_ge off 0x100 with hlt | hge
  · rw [readData_registers hlt, regAt_unlisted (by omega)]
    rfl
  · rw [readData, regionOf_reserved (by omega)]

theorem performWrite_reservedOffset {off : Nat} (h : ReservedOffset off) (w : Width) (v : Word) (s : State) :
    performWrite w off v s = .next s := by
  unfold ReservedOffset at h
  rcases lt_or_ge off 0x100 with hlt | hge
  · exact performWrite_unlisted hlt (regAt_unlisted (by omega)) w v s
  · exact performWrite_reserved (by omega) w v s

/-! ### Registers with side effects (R24, R25, R27, R44, R281) -/

theorem ctrlClass_fieldWrite (a v : Word) : bits ((a &&& ~~~ 0xF) ||| (v &&& 0xF)) 1 0 = bits v 1 0 := by
  rw [bits_eq_extractLsb', bits_eq_extractLsb']
  congr 1
  apply BitVec.eq_of_getLsbD_eq
  intro i hi
  obtain rfl | rfl : i = 0 ∨ i = 1 := by omega
  · simp
  · simp

/-- A write of SCHED_CTRL: its RW bits, and an idle RxC closed when the new class is not 2 (R42, R281). -/
theorem hostAccess_write_schedCtrl (v : Word) (s : State) :
    hostAccess (.write .w32 0x080 v) s =
      (let c := (s.regs.schedCtrl &&& ~~~0xF) ||| (v &&& 0xF)
       let t : State := { s with busOut := .done, regs := { s.regs with schedCtrl := c } }
       if s.sched.fsm = .idle ∧ s.radioPending = .rx .rxC ∧ bits v 1 0 ≠ 2 then
         .next { t with radioPending := .none, radioOut := s.radioOut ++ [.standby] }
       else .next t) := by
  have hclass : ctrlClass (writeFields .schedCtrl v { s with busOut := .done }) = bits v 1 0 :=
    ctrlClass_fieldWrite s.regs.schedCtrl v
  rw [hostAccess_write_register (r := .schedCtrl) rfl nofun, writeReg, leaveClassC_eq, hclass]
  exact apply_ite Host.Outcome.next _ _ _

/-- CMD keeps the word written, but for SOFT_RESET, which clears it (R24, R101). -/
theorem issueCommand_cmd {w : Word} {s t : State} (h : issueCommand w s = .next t) (hw : decode w ≠ .ok .softReset) :
    t.regs.cmd = w := by
  obtain ⟨t', ht, hcases⟩ := issueCommand_ends w s
  obtain rfl : t' = t := by rw [h] at ht; cases ht; rfl
  rcases hcases with ⟨i, u, hd, hu, rfl⟩ | ⟨c, -, rfl⟩
  · have hne : i ≠ .softReset := by
      rintro rfl
      exact hw hd
    exact List.map_inj_left.1 (hu.frame.config hne) .cmd (by decide)
  · rfl

/-! ### STATUS, SCHED_STATE and the interrupt line (R25, R51, R310) -/

theorem getLsbD_fifteen (i : Nat) : (15#32).getLsbD i = decide (i < 4) := by
  have hones : (15#32).getLsbD i = (decide (i < 32) && (2 ^ 4 - 1).testBit i) := BitVec.getLsbD_ofNat 32 15 i
  rw [hones, Nat.testBit_two_pow_sub_one, ← Bool.decide_and]
  exact decide_eq_decide.2 (by omega)

/-- The line is up exactly when an enabled one of the four causes is set (R310). -/
theorem irqLine_iff (s : State) : irqLine s = true ↔ ∃ i, i < 4 ∧ bit s.regs.irqStat i = 1 ∧ bit s.regs.irqEn i = 1 := by
  have hbits (i : Nat) : (s.regs.irqStat &&& s.regs.irqEn &&& 0xF).getLsbD i =
      (s.regs.irqStat.getLsbD i && s.regs.irqEn.getLsbD i && decide (i < 4)) := by
    rw [BitVec.getLsbD_and, BitVec.getLsbD_and]
    exact congrArg _ (getLsbD_fifteen i)
  simp only [bit_eq_one_iff, irqLine, decide_eq_true_eq]
  constructor
  · intro h
    by_contra hno
    refine h (BitVec.eq_of_getLsbD_eq fun i _ => ?_)
    have hzero : (0 : Word).getLsbD i = false := BitVec.getLsbD_zero
    rw [hbits, hzero, ← Bool.not_eq_true, Bool.and_eq_true, Bool.and_eq_true, decide_eq_true_eq]
    exact fun ⟨⟨hstat, hen⟩, hi⟩ => hno ⟨i, hi, hstat, hen⟩
  · rintro ⟨i, hi, hstat, hen⟩ h
    have hset := hbits i
    rw [h, hstat, hen, decide_eq_true hi] at hset
    simp at hset

theorem bits_word {n : Nat} (h : n < 2 ^ 32) (hi lo : Nat) : bits (word n) hi lo = n / 2 ^ lo % 2 ^ (hi + 1 - lo) := by
  rw [bits, word, BitVec.toNat_ofNat, Nat.mod_eq_of_lt h]

theorem flag_eq_one_iff (b : Bool) : flag b = 1 ↔ b = true := by cases b <;> decide

theorem rxcOpen_iff (s : State) : rxcOpen s = true ↔ s.radioPending = .rx .rxC := by
  rw [rxcOpen, decide_eq_true_eq, rxcNumber]
  split_ifs <;> simp_all

/-- The fields of STATUS (R25). -/
theorem statusWord_fields (s : State) :
    bits (statusWord s) 7 0 = codeNumber s.regs.err ∧ bit (statusWord s) 8 = flag (sbusy s) ∧
      bit (statusWord s) 9 = flag s.regs.rxPend ∧ bit (statusWord s) 10 = flag (rxcOpen s) ∧
      bits (statusWord s) 31 11 = 0 := by
  have hc := codeNumber_le s.regs.err
  have hb := flag_le (sbusy s)
  have hx := flag_le s.regs.rxPend
  have ho := flag_le (rxcOpen s)
  simp only [statusWord, bit]
  refine ⟨?_, ?_, ?_, ?_, ?_⟩ <;> rw [bits_word (by omega)] <;> omega

/-- The fields of SCHED_STATE (R51). -/
theorem schedStateWord_fields (s : State) :
    bits (schedStateWord s) 3 0 = fsmNumber s.sched.fsm ∧ bits (schedStateWord s) 5 4 = rxcNumber s ∧
      bits (schedStateWord s) 31 6 = 0 := by
  have hf := fsmNumber_le s.sched.fsm
  have hr := rxcNumber_le s
  rw [schedStateWord]
  refine ⟨?_, ?_, ?_⟩ <;> rw [bits_word (by omega)] <;> omega

/-- The fields of an outcome word (R51). -/
theorem sendResultWord_fields {w : Nat} (hw : w < 16) (c : Code) :
    bits (sendResultWord w c) 3 0 = w ∧ bits (sendResultWord w c) 7 4 = 0 ∧
      bits (sendResultWord w c) 15 8 = codeNumber c ∧ bit (sendResultWord w c) 16 = 1 ∧
      bits (sendResultWord w c) 31 17 = 0 := by
  have hc := codeNumber_le c
  simp only [sendResultWord, bit]
  refine ⟨?_, ?_, ?_, ?_, ?_⟩ <;> rw [bits_word (by omega)] <;> omega

/-- The class that RxC follows, as R280 gives it. -/
theorem applicableClass_eq {s : State} {cls : Nat}
    (h : (s.sched.fsm = .idle ∧ cls = bits s.regs.schedCtrl 1 0) ∨
      (s.sched.fsm ≠ .idle ∧ ∃ sn, s.sched.snap = some sn ∧ cls = sn.cls)) : applicableClass s = cls := by
  rcases h with ⟨hf, rfl⟩ | ⟨hf, sn, hs, rfl⟩
  · exact if_pos hf
  · rw [applicableClass, if_neg hf, hs]
    rfl

end Sys2Proof.Machine
end

section
/-! PROOFS of the family 10_state. The settled statements. -/

namespace Sys2Proof.Machine

/-- Settles O60: the due urgent step or the next input keeps the invariant and does not stop. -/
theorem everyStepKeepsTheInvariant : Obligations.EveryStepKeepsTheInvariant := by
  unfold Obligations.EveryStepKeepsTheInvariant
  intro s h
  have htaken : Inv (taken s s.inputs) := h.congr rfl rfl rfl rfl
  rw [step_eq]
  cases hu : dueUrgent s with
  | some u =>
    rw [← dueUrgent_taken s s.inputs] at hu
    exact runUrgent_inv htaken (guard_of_dueUrgent hu)
  | none => exact takeInput_inv htaken

/-- Settles O51: every row of the statement is a row of the model's map, and a write of its register is a field write. -/
theorem registerWritesReadBack : Obligations.RegisterWritesReadBack := by
  unfold Obligations.RegisterWritesReadBack
  intro v s low high
  have hrows : low ++ high = plainRows := rfl
  rw [hrows]
  refine ⟨fun p hp => ?_, rfl⟩
  obtain ⟨r, hr, hplain, hget, hmask⟩ := exists_reg_of_mem_plainRows hp
  have hd := derivedReg_of_plainReg hplain
  have hread : hostAccess (.read .w32 p.1) s = .next { s with busOut := .data (p.2.1 s.regs) } := by
    rw [hostAccess_read_register hr, hget, readReg_eq_storedWord s hd]
  have hother (q : Reg) (hq : q ≠ r) (hqd : derivedReg q = false) :
      storedWord q (writeFields r v s).regs = storedWord q s.regs := by
    rw [storedWord_writeFields s v hd hqd, if_neg hq]
  have hspecial (q : Reg) (hq : plainReg q = false) : q ≠ r := by rintro rfl; simp [hplain] at hq
  refine ⟨hread, fun hidle =>
    ⟨_, hostAccess_write_plain hr hplain (fun hl => hidle (locked_offset hr hl)) v, ?_, fun q hq hne => ?_,
      hother .cmd (hspecial _ rfl) rfl, hother .irqStat (hspecial _ rfl) rfl, hother .schedCtrl (hspecial _ rfl) rfl,
      putReg_err _ _ _, putReg_rxPend _ _ _⟩⟩
  · rw [hget, hmask, storedWord_writeFields s v hd hd, if_pos rfl]
  · obtain ⟨r', hr', hplain', hget', -⟩ := exists_reg_of_mem_plainRows hq
    rw [hget']
    refine hother r' ?_ (derivedReg_of_plainReg hplain')
    rintro rfl
    exact hne (BitVec.eq_of_toNat_eq (regAt_injective hr' hr))

/-- Settles O52: each register by the equation of its own write. -/
theorem specialRegisters : Obligations.SpecialRegisters := by
  unfold Obligations.SpecialRegisters
  intro v s
  refine ⟨hostAccess_read_register (r := .cmd) rfl s, ?_, hostAccess_read_register (r := .irqStat) rfl s,
    hostAccess_read_register (r := .schedCtrl) rfl s, ?_, hostAccess_write_register (r := .irqStat) rfl nofun v s,
    fun hf off hoff => ?_, hostAccess_write_schedCtrl v s⟩
  · obtain ⟨t, ht, -⟩ := issueCommand_ends v { s with busOut := .done }
    exact ⟨t, ht, issueCommand_cmd ht⟩
  · rw [hostAccess_write_register (r := .status) rfl nofun, writeReg_status]
  · obtain ⟨r, hr, hl⟩ : ∃ r, regAt off.toNat = some r ∧ busyLocked r = true := by
      rcases hoff with rfl | rfl | rfl
      · exact ⟨.lastEnd, rfl, rfl⟩
      · exact ⟨.lastToa, rfl, rfl⟩
      · exact ⟨.fcntUp, rfl, rfl⟩
    rw [hostAccess_write_register hr (by rintro rfl; cases hl), writeReg_locked hl]
    exact hf

/-- Settles O53: the bytes of the word land at the places the access covers, and nowhere else. -/
theorem keyWindow : Obligations.KeyWindow := by
  unfold Obligations.KeyWindow
  intro w off v s ha hlo hhi
  have hallowed := accessAllowed_of_window ha hlo
  have hend := access_end_le ha (by decide) hhi
  refine ⟨?_, (writeKeyBytes (off.toNat - 0x100) (leBytes (widthBytes w) v.toNat) { s with busOut := .done }).keys, ?_,
    fun n j => ?_⟩
  · rw [hostAccess_read hallowed, readData, regionOf_keys hlo hhi]
  · rw [hostAccess_write hallowed, performWrite_keys hlo hhi, writeKeyBytes_eq]
  · have hbyte := writeKeyBytes_byte (leBytes (widthBytes w) v.toNat) (off.toNat - 0x100) { s with busOut := .done }
      (by rw [leBytes_length]; omega) n j
    rw [leBytes_length] at hbyte
    refine hbyte.trans ?_
    by_cases hin : off.toNat ≤ 0x100 + 16 * n.val + j.val ∧ 0x100 + 16 * n.val + j.val < off.toNat + widthBytes w
    · have hsub : 16 * n.val + j.val - (off.toNat - 0x100) = 0x100 + 16 * n.val + j.val - off.toNat := by omega
      rw [if_pos hin, if_pos (by omega), hsub, List.getD_eq_getElem?_getD, leBytes_getElem?, if_pos (by omega),
        Option.getD_some]
    · rw [if_neg hin, if_neg (by omega)]
      rfl

/-- Settles O54: the place-value sum of a read, and the string write of R10 for a write. -/
theorem ramWindow : Obligations.RamWindow := by
  unfold Obligations.RamWindow
  intro w off v s ha hlo hhi
  have hallowed := accessAllowed_of_window ha (by omega)
  have hend := access_end_le ha (by decide) hhi
  refine ⟨⟨_, hostAccess_read hallowed s, ?_⟩,
    s.ram.writeBytes (off.toNat - 0x200) (leBytes (widthBytes w) v.toNat), ?_, ?_⟩
  · have hlt : leVal (memRead s (off.toNat - 0x200) (widthBytes w)) < 2 ^ 32 := by
      refine lt_of_lt_of_le (leVal_lt _) ?_
      rw [memRead_length]
      exact Nat.pow_le_pow_right (by decide) (widthBytes_le w)
    rw [readData, regionOf_ram hlo hhi]
    dsimp only
    rw [word, BitVec.toNat_ofNat, Nat.mod_eq_of_lt hlt, leVal_memRead]
  · rw [hostAccess_write hallowed, performWrite_ram hlo hhi]
    rfl
  · rw [← leBytes_eq_ofFn]
    refine stored_writeBytes _ _ _ ?_
    rw [leBytes_length, Config.ramSize]
    omega

/-- Settles O55: the fields of each word are read off its sum of disjoint parts. -/
theorem statusAndInterruptLine : Obligations.StatusAndInterruptLine := by
  unfold Obligations.StatusAndInterruptLine
  intro number
  have hnumber : number = codeNumber := by
    funext c
    cases c <;> rfl
  rw [hnumber]
  refine ⟨irqLine_iff, fun s => ⟨_, hostAccess_read_register (r := .status) rfl s, ?_⟩, fun s cls hcls =>
    ⟨_, hostAccess_read_register (r := .schedState) rfl s, ?_⟩,
    fun s => hostAccess_read_register (r := .sendResult) rfl s, fun w c hw => sendResultWord_fields hw c⟩
  · obtain ⟨herr, hbusy, hpend, hopen, hrest⟩ := statusWord_fields s
    refine ⟨herr, ?_, ?_, ?_, hrest⟩
    · rw [readReg, hbusy, flag_eq_one_iff, sbusy, decide_eq_true_eq]
    · rw [readReg, hpend, flag_eq_one_iff]
    · rw [readReg, hopen, flag_eq_one_iff, rxcOpen_iff]
  · obtain ⟨hfsm, hrxc, hrest⟩ := schedStateWord_fields s
    refine ⟨hfsm.trans (by cases s.sched.fsm <;> rfl), ?_, hrest⟩
    rw [readReg, hrxc, rxcNumber, applicableClass_eq hcls]

/-- Settles O56: the effects' frame, and an epilogue that writes STATUS.ERR and IRQ_STAT only. -/
theorem commandFrames : Obligations.CommandFrames := by
  unfold Obligations.CommandFrames
  intro i s t h
  have hkeeps := exec_keeps h
  have hframe : EffectFrame i s t := by
    rcases exec_ends h with ⟨u, hu, rfl⟩ | ⟨c, -, -, rfl⟩
    · obtain ⟨hk, hm, hsess, hsch, hcfg⟩ := hu.frame
      exact ⟨hk, hm, hsess, hsch, hcfg⟩
    · exact ⟨fun _ => rfl, fun _ => rfl, fun _ => rfl, fun _ => ⟨rfl, rfl, rfl⟩, fun _ => rfl⟩
  exact ⟨hframe.keys, hframe.ram, fun hs => readReg_eq_of_map (L := sessionRegs) (by decide) (hframe.session hs),
    hframe.sched, fun hne => readReg_eq_of_map (L := configRegs) (by decide) (hframe.config hne), hkeeps⟩

/-- Settles O58: urgent steps and events but TX_DONE are quiet, and the clock, the host and TX_DONE do what R45 lists. -/
theorem counterRules : Obligations.CounterRules := by
  unfold Obligations.CounterRules
  intro s t h
  rw [step_eq] at h
  cases hu : dueUrgent s with
  | some u =>
    rw [hu] at h
    have hq := runUrgent_quiet h
    exact ⟨fun hb => hq.busFault.trans hb, fun hne => absurd hq.now hne, fun hne => absurd hq.fcntUp hne⟩
  | none =>
    rw [hu] at h
    dsimp only at h
    cases hin : s.inputs with
    | nil =>
      rw [takeInput_nil hin] at h
      cases h
      exact ⟨id, fun _ => ⟨rfl, rfl, .inl rfl⟩, fun hne => absurd rfl hne⟩
    | cons i rest =>
      cases i with
      | clock =>
        rw [takeInput_clock hin] at h
        cases h
        exact ⟨id, fun _ => ⟨rfl, rfl, .inr ⟨rest, rfl⟩⟩, fun hne => absurd rfl hne⟩
      | host a =>
        rw [takeInput_host hin] at h
        obtain ⟨hb, hn, hc⟩ := hostAccess_counters h
        refine ⟨hb, fun hne => absurd hn hne, fun hne => .inr ?_⟩
        obtain ⟨hf, off, v, rfl, hw⟩ := hc hne
        exact ⟨hf, rest, off, v, rfl, hw⟩
      | radio e =>
        rw [takeInput_radio hin] at h
        rcases radioEvent_quiet h with hq | ⟨rfl, hf, sn, hs, rfl⟩
        · exact ⟨fun hb => hq.busFault.trans hb, fun hne => absurd hq.now hne, fun hne => absurd hq.fcntUp hne⟩
        · refine ⟨id, fun hne => absurd rfl hne, fun hne => .inl ⟨rest, sn, rfl, hf, hs, ?_⟩⟩
          cases hretx : sn.retx with
          | true => simp [onTxDone, hretx, taken] at hne
          | false => simp [onTxDone, hretx, taken]

/-- Settles O50: what `accessAllowed` refuses faults, and every allowed write goes by its region. -/
theorem busFaultsAndReservedOffsets : Obligations.BusFaultsAndReservedOffsets := by
  unfold Obligations.BusFaultsAndReservedOffsets
  intro w off v s a bad reserved
  have hallowed : ¬ bad → accessAllowed w off.toNat = true := fun hb =>
    (accessAllowed_iff w a).2 ⟨not_not.1 fun h => hb (.inl h), fun h => not_not.1 fun hw => hb (.inr ⟨h, hw⟩)⟩
  refine ⟨fun hb => ?_, fun hb => ⟨⟨_, hostAccess_read (hallowed hb) s⟩, ?_⟩, fun hb hres => ⟨?_, ?_⟩⟩
  · have hfault : accessAllowed w off.toNat = false := by
      rw [← Bool.not_eq_true, accessAllowed_iff]
      rintro ⟨hal, hw⟩
      exact hb.elim (fun h => h hal) fun ⟨h, hne⟩ => hne (hw h)
    exact ⟨hostAccess_read_fault hfault s, hostAccess_write_fault hfault v s⟩
  · obtain ⟨t, ht, hfault, hout, -⟩ := (performWrite_effect (hallowed hb) v { s with busOut := .done }).counters
    exact ⟨t, (hostAccess_write (hallowed hb) v s).trans ht, hfault, hout⟩
  · rw [hostAccess_read (hallowed hb), readData_reservedOffset hres]
  · rw [hostAccess_write (hallowed hb), performWrite_reservedOffset hres]

end Sys2Proof.Machine
end

section
/-! PROOFS of the family 30_encoding.
The command word as its OP and its operands, and the decoder as the masked word being the encoding (R90-R100). -/

namespace Sys2Proof.Machine

open Laws.OpcodeField (opcode dirBit_lt revBit_lt flagBit_lt)

/-! ### Fields of a masked word -/

theorem bits_lt (v : Word) (hi lo : Nat) : bits v hi lo < 2 ^ (hi + 1 - lo) := Nat.mod_lt _ (by positivity)

theorem bits_and (v m : Word) (hi lo : Nat) : bits (v &&& m) hi lo = bits v hi lo &&& bits m hi lo := by
  simp only [bits_eq_extractLsb', BitVec.extractLsb'_and, BitVec.toNat_and]

/-- A field that the mask covers is kept. -/
theorem bits_and_of_full {m : Word} {hi lo : Nat} (h : bits m hi lo = 2 ^ (hi + 1 - lo) - 1) (v : Word) :
    bits (v &&& m) hi lo = bits v hi lo := by
  rw [bits_and, h, Nat.and_two_pow_sub_one_eq_mod, Nat.mod_eq_of_lt (bits_lt v hi lo)]

/-- A field that the mask leaves out is 0. -/
theorem bits_and_of_zero {m : Word} {hi lo : Nat} (h : bits m hi lo = 0) (v : Word) : bits (v &&& m) hi lo = 0 := by
  rw [bits_and, h, Nat.and_zero]

/-! ### Fields as operands (R90, R92-R96) -/

theorem bitSet_eq_iff (v : Word) (i : Nat) (b : Bool) : bitSet v i = b ↔ bit v i = b.toNat := by
  have hlt : bit v i < 2 ^ (i + 1 - i) := bits_lt v i i
  rw [Nat.add_sub_cancel_left] at hlt
  cases b
  · simp only [bitSet, beq_eq_false_iff_ne, Bool.toNat_false]
    omega
  · simp only [bitSet, beq_iff_eq, Bool.toNat_true]

theorem ksField_eq_iff (w : Word) (k : Fin 8) : ksField w = k ↔ bits w 10 8 = k.val := Fin.ext_iff

theorem dirField_eq_iff (w : Word) (d : Dir) : dirField w = d ↔ bit w 11 = dirBit d := by
  cases d
  · exact .trans (by simp [dirField]) (bitSet_eq_iff w 11 false)
  · exact .trans (by simp [dirField]) (bitSet_eq_iff w 11 true)

theorem revField_eq_iff (w : Word) (r : Rev) : revField w = r ↔ bit w 12 = revBit r := by
  cases r
  · exact .trans (by simp [revField]) (bitSet_eq_iff w 12 false)
  · exact .trans (by simp [revField]) (bitSet_eq_iff w 12 true)

/-- The operands of a command word; a command that does not read a field has 0 there (R98). -/
structure Operands where
  ks : Fin 8 := 0
  dir : Dir := .up
  rev : Rev := .r10
  f0 : Bool := false
  f1 : Bool := false
  len : Nat := 0

/-- The operand fields of a word. -/
def operandsOf (w : Word) : Operands where
  ks := ksField w
  dir := dirField w
  rev := revField w
  f0 := f0Field w
  f1 := f1Field w
  len := lenField w

/-- The word with an OP and operands, RSV and F2 at 0. -/
def operandWord (op : Nat) (o : Operands) : Word :=
  packWord op o.ks (dirBit o.dir) (revBit o.rev) o.f0.toNat o.f1.toNat o.len

theorem operandWord_toNat {op : Nat} {o : Operands} (hop : op < 256) (hlen : o.len < 256) :
    (operandWord op o).toNat = op + o.ks.val * 2 ^ 8 + dirBit o.dir * 2 ^ 11 + revBit o.rev * 2 ^ 12 +
      o.f0.toNat * 2 ^ 13 + o.f1.toNat * 2 ^ 14 + o.len * 2 ^ 16 := by
  have hd := dirBit_lt o.dir
  have hr := revBit_lt o.rev
  have h0 := flagBit_lt o.f0
  have h1 := flagBit_lt o.f1
  rw [operandWord, packWord, BitVec.toNat_ofNat, Nat.mod_eq_of_lt]
  omega

theorem operandsOf_eq_iff (w : Word) (o : Operands) : operandsOf w = o ↔
    bits w 10 8 = o.ks.val ∧ bits w 11 11 = dirBit o.dir ∧ bits w 12 12 = revBit o.rev ∧ bits w 13 13 = o.f0.toNat ∧
      bits w 14 14 = o.f1.toNat ∧ bits w 23 16 = o.len := by
  obtain ⟨ks, dir, rev, f0, f1, len⟩ := o
  rw [operandsOf, Operands.mk.injEq, ksField_eq_iff, dirField_eq_iff, revField_eq_iff, f0Field, bitSet_eq_iff, f1Field,
    bitSet_eq_iff]
  rfl

/-- A word is its OP and its operands exactly when its fields are, with RSV and F2 at 0 (R90). -/
theorem eq_operandWord_iff {op : Nat} {o : Operands} (hop : op < 256) (hlen : o.len < 256) (w : Word) :
    w = operandWord op o ↔ bits w 31 24 = 0 ∧ bits w 15 15 = 0 ∧ bits w 7 0 = op ∧ operandsOf w = o := by
  have hd := dirBit_lt o.dir
  have hr := revBit_lt o.rev
  have h0 := flagBit_lt o.f0
  have h1 := flagBit_lt o.f1
  have hw := w.isLt
  rw [BitVec.toNat_eq, operandWord_toNat hop hlen, operandsOf_eq_iff]
  simp only [bits]
  omega

/-! ### The operands of a command -/

/-- The operands that a command carries. -/
def operands : Instr → Operands
  | .nop | .wipe | .softReset | .fctrlPack | .fctrlUnpack | .fcntInfer => {}
  | .aesEnc ks len | .aesDec ks len | .cmac ks len | .kdf ks len => { ks, len }
  | .ctrCrypt ks dir f0 len => { ks, dir, f0, len }
  | .mic ks dir rev f0 f1 len => { ks, dir, rev, f0, f1, len }
  | .deriveSession rev | .deriveJs rev | .buildJoinreq rev => { rev }
  | .storeLe len | .storeBe len | .loadLe len | .loadBe len => { len }
  | .buildUplink rev len | .parseDownlink rev len | .parseJoinacc rev len => { rev, len }
  | .checksum f0 f1 | .send f0 f1 => { f0, f1 }
  | .dcCheck f0 => { f0 }

theorem opcode_lt (i : Instr) : opcode i < 256 := by cases i <;> simp [opcode]

theorem encode_eq_operandWord (i : Instr) : encode i = operandWord (opcode i) (operands i) := by cases i <;> rfl

theorem wellFormed_iff (i : Instr) : i.wellFormed = true ↔ (operands i).len < 256 := by
  cases i <;> simp [Instr.wellFormed, operands, lenFits]

/-- Every command reads RSV and OP, and none reads F2 (R98). -/
theorem fieldsRead_covers (i : Instr) :
    bits (fieldsRead i) 31 24 = 255 ∧ bits (fieldsRead i) 15 15 = 0 ∧ bits (fieldsRead i) 7 0 = 255 := by
  cases i <;> simp [fieldsRead, bits]

/-- Under a command's OP the opcode map gives it exactly for its operands in the fields it reads: the mask keeps those
and zeroes the rest (R98). -/
theorem decodeOp_opcode_iff (i : Instr) (w : Word) :
    decodeOp (opcode i) w = .ok i ↔ operandsOf (w &&& fieldsRead i) = operands i := by
  rw [operandsOf_eq_iff]
  cases i <;>
    simp (disch := decide) [decodeOp, opcode, fieldsRead, operands, bits_and_of_full, bits_and_of_zero, dirBit, revBit,
      ksField_eq_iff, dirField_eq_iff, revField_eq_iff, f0Field, f1Field, bitSet_eq_iff, lenField, bit]

/-- The opcode map gives only commands that a word can carry, under their own OP. -/
theorem opcode_of_decodeOp {op : Nat} {w : Word} {i : Instr} (h : decodeOp op w = .ok i) :
    op = opcode i ∧ i.wellFormed = true := by
  have hlen : lenFits (lenField w) = true := decide_eq_true (bits_lt w 23 16)
  unfold decodeOp at h
  split at h <;> cases h <;> simp [opcode, Instr.wellFormed, hlen]

/-- Under a command's OP the opcode map gives it for its operands. -/
theorem decodeOp_of_operandsOf {i : Instr} {w : Word} (h : operandsOf w = operands i) :
    decodeOp (opcode i) w = .ok i := by
  obtain ⟨hks, hdir, hrev, hf0, hf1, hlen⟩ := Operands.mk.inj h
  cases i <;> simp [decodeOp, opcode, hks, hdir, hrev, hf0, hf1, hlen]

/-! ### The decoder and the encoder -/

theorem decode_eq_ok_iff_decodeOp (w : Word) (i : Instr) :
    decode w = .ok i ↔ bits w 31 24 = 0 ∧ decodeOp (bits w 7 0) w = .ok i := by
  unfold decode
  split_ifs with h
  · simp [h]
  · simp [not_not.1 h]

/-- What the encoder writes: RSV and F2 at 0, the command's OP and its operands (R90). -/
theorem encode_fields {i : Instr} (h : i.wellFormed = true) :
    bits (encode i) 31 24 = 0 ∧ bits (encode i) 15 15 = 0 ∧ bits (encode i) 7 0 = opcode i ∧
      operandsOf (encode i) = operands i :=
  (eq_operandWord_iff (opcode_lt i) ((wellFormed_iff i).1 h) _).1 (encode_eq_operandWord i)

/-- The words of a well-formed command are those with its encoding in the fields it reads (R98, R100). -/
theorem decode_eq_ok_iff (w : Word) (i : Instr) :
    decode w = .ok i ↔ i.wellFormed = true ∧ w &&& fieldsRead i = encode i := by
  obtain ⟨hrsv, hf2, hop⟩ := fieldsRead_covers i
  have hmasked (hwf : i.wellFormed = true) : w &&& fieldsRead i = encode i ↔
      bits w 31 24 = 0 ∧ bits w 7 0 = opcode i ∧ decodeOp (opcode i) w = .ok i := by
    rw [encode_eq_operandWord, eq_operandWord_iff (opcode_lt i) ((wellFormed_iff i).1 hwf), bits_and_of_full hrsv,
      bits_and_of_zero hf2, bits_and_of_full hop, ← decodeOp_opcode_iff, eq_self_iff_true, true_and]
  rw [decode_eq_ok_iff_decodeOp]
  constructor
  · rintro ⟨hzero, h⟩
    obtain ⟨hcode, hwf⟩ := opcode_of_decodeOp h
    exact ⟨hwf, (hmasked hwf).2 ⟨hzero, hcode, hcode ▸ h⟩⟩
  · rintro ⟨hwf, h⟩
    obtain ⟨hzero, hcode, h⟩ := (hmasked hwf).1 h
    exact ⟨hzero, hcode.symm ▸ h⟩

/-! ### Undefined words (R97, R99) -/

/-- R99's ranges of OP values that are no command. -/
def UndefinedOp (op : Nat) : Prop :=
  (0x03 ≤ op ∧ op ≤ 0x0F) ∨ (0x18 ≤ op ∧ op ≤ 0x1F) ∨ (0x2C ≤ op ∧ op ≤ 0x2F) ∨ (0x31 ≤ op ∧ op ≤ 0x37) ∨ 0x39 ≤ op

/-- The opcode map refuses exactly R99's ranges. -/
theorem decodeOp_eq_error_iff (op : Nat) (w : Word) : (∃ e, decodeOp op w = .error e) ↔ UndefinedOp op := by
  unfold decodeOp UndefinedOp
  split
  case h_26 =>
    simp only [imp_false] at *
    exact iff_of_true ⟨_, rfl⟩ (by omega)
  all_goals exact iff_of_false nofun (by decide)

/-- The decoder refuses exactly the words with RSV not 0 or an undefined OP. -/
theorem decode_eq_error_iff (w : Word) :
    (∃ e, decode w = .error e) ↔ bits w 31 24 ≠ 0 ∨ UndefinedOp (bits w 7 0) := by
  unfold decode
  split_ifs with h
  · exact iff_of_true ⟨_, rfl⟩ (.inl h)
  · rw [decodeOp_eq_error_iff, or_iff_right h]

/-! ### Issuing a word (R101) -/

theorem issueCommand_of_ok {w : Word} {i : Instr} (h : decode w = .ok i) (s : State) :
    issueCommand w s = exec i { s with regs := { s.regs with cmd := w } } := by
  rw [issueCommand, h]

theorem issueCommand_of_error {w : Word} {e : DecodeError} (h : decode w = .error e) (s : State) :
    issueCommand w s = .next (errState .illegal { s with regs := { s.regs with cmd := w } }) := by
  rw [issueCommand, h]
  exact congrArg Host.Outcome.next (epilogue_error .illegal (by decide) _)

/-- A 32-bit write of CMD issues the word. -/
theorem hostAccess_write_cmd (w : Word) (s : State) :
    hostAccess (.write .w32 0x000 w) s = issueCommand w { s with busOut := .done } := rfl

end Sys2Proof.Machine
end

section
/-! PROOFS of the family 30_encoding. The settled statements. -/

namespace Sys2Proof.Machine

/-- Settles O1: the encoder writes the command's OP and operands, which is all the decoder reads. -/
theorem decodeEncodeRoundTrip : Obligations.DecodeEncodeRoundTrip := by
  unfold Obligations.DecodeEncodeRoundTrip
  intro i hwf
  obtain ⟨hrsv, -, hop, hoperands⟩ := encode_fields hwf
  refine (decode_eq_ok_iff_decodeOp _ i).2 ⟨hrsv, ?_⟩
  rw [hop]
  exact decodeOp_of_operandsOf hoperands

/-- Settles O2: the decoder refuses exactly the words of R97 and R99, and issuing goes by the decoder. -/
theorem undefinedWordsAreIllegal : Obligations.UndefinedWordsAreIllegal := by
  unfold Obligations.UndefinedWordsAreIllegal
  intro w op
  split_ifs with h
  · obtain ⟨e, he⟩ := (decode_eq_error_iff w).2 h
    exact issueCommand_of_error he
  · cases hd : decode w with
    | error e => exact absurd ((decode_eq_error_iff w).1 ⟨e, hd⟩) h
    | ok i => exact ⟨i, rfl, ((decode_eq_ok_iff w i).1 hd).1, issueCommand_of_ok hd⟩

/-- Settles O3: the words of a command are those with its encoding in the fields it reads. -/
theorem unreadFieldsAreIgnored : Obligations.UnreadFieldsAreIgnored := by
  unfold Obligations.UnreadFieldsAreIgnored
  intro w i h
  obtain ⟨hwf, hw⟩ := (decode_eq_ok_iff w i).1 h
  exact ⟨hw.symm, fun v hv => (decode_eq_ok_iff v i).2 ⟨hwf, hv.trans hw⟩⟩

/-- Settles O4: each word holds its command's encoding in the fields the command reads. -/
theorem specWordsDecode : Obligations.SpecWordsDecode := by
  unfold Obligations.SpecWordsDecode
  simp only [decode_eq_ok_iff]
  decide

/-- Settles O6: the step takes the write, which is one of CMD. -/
theorem stepRunsTheIssuedCommand : Obligations.StepRunsTheIssuedCommand := by
  unfold Obligations.StepRunsTheIssuedCommand
  intro s rest w i hdue hin hdecode
  rw [step_eq, hdue]
  dsimp only
  rw [takeInput_host hin, hostAccess_write_cmd, issueCommand_of_ok hdecode]
  rfl

end Sys2Proof.Machine
end

section
/-! PROOFS of the family 40_control. NOP, WIPE and SOFT_RESET (R110-R112). -/

namespace Sys2Proof.Machine

/-! ### Commands that an attempt refuses (R111, R112) -/

theorem sbusy_iff {s : State} : sbusy s = true ↔ s.sched.fsm ≠ .idle := decide_eq_true_iff

section
variable {i : Instr} {s u : State} (hi : commandOf i s = if sbusy s then .error .busy else .ok u)
include hi

/-- While an attempt runs, a command with that check is ERR_BUSY. -/
theorem exec_of_busy (hbusy : s.sched.fsm ≠ .idle) : exec i s = .next (errState .busy s) :=
  exec_error (by decide) (hi.trans (if_pos (sbusy_iff.2 hbusy)))

/-- While Idle, a command with that check alone has its effects. -/
theorem exec_of_idle (hidle : s.sched.fsm = .idle) : exec i s = .next (okState u) :=
  exec_ok (hi.trans (if_neg (mt sbusy_iff.1 (not_not.2 hidle))))

end

/-! ### The effects of WIPE and SOFT_RESET (R111, R112, R330) -/

theorem zeroKeys_getElem (n : Fin 8) : zeroKeys[n] = Vector.replicate 16 0 := Vector.getElem_replicate n.isLt

/-- SOFT_RESET after cancelling an open RxC: the reset state, but RAM, NOW, the fault mark and the model's own fields;
the epilogue sets IRQ_STAT.CMDDONE in a register that is 0. -/
theorem okState_softResetState_closeRxC (s : State) :
    okState (softResetState (closeRxC s)) = { State.reset with
      regs := { Regs.reset with now := s.regs.now, irqStat := 1 }
      ram := s.ram
      busFault := s.busFault
      inputs := s.inputs
      busOut := s.busOut
      radioOut := s.radioOut ++ if s.radioPending = .rx .rxC then [.standby] else [] } := by
  simp [okState, softResetState, State.reset, Regs.reset, closeRxC_radioOut]

/-! ### The settled statements -/

/-- Settles O9: NOP has no check and no effect, in whatever scheduler state, so the epilogue is all of it. -/
theorem nopCommand : Obligations.NopCommand := by
  unfold Obligations.NopCommand
  intro s
  have hnop : commandOf .nop s = .ok s := rfl
  exact exec_ok hnop

/-- Settles O10: the one check is the busy one, and the effects are `wipeState`, whose slots are all 0. -/
theorem wipeCommand : Obligations.WipeCommand := by
  unfold Obligations.WipeCommand
  intro s
  have hwipe : commandOf .wipe s = if sbusy s then .error .busy else .ok (wipeState s) := rfl
  split_ifs with h
  · exact exec_of_busy hwipe h
  · exact ⟨zeroKeys, zeroKeys_getElem, exec_of_idle hwipe (not_not.1 h)⟩

/-- Settles O11: the one check is the busy one, and the effects are a reset of the state with RxC closed. -/
theorem softResetCommand : Obligations.SoftResetCommand := by
  unfold Obligations.SoftResetCommand
  intro s
  have hreset : commandOf .softReset s = if sbusy s then .error .busy else .ok (softResetState (closeRxC s)) := rfl
  split
  case isTrue h => exact exec_of_busy hreset h
  case isFalse h =>
    rw [← okState_softResetState_closeRxC]
    exact exec_of_idle hreset (not_not.1 h)

end Sys2Proof.Machine
end

section
/-! PROOFS of the family 41_crypto. AES-128 (R121-R126). -/

namespace Sys2Proof.Machine

/-! ### GF(2^8) and the S-boxes (R121-R123) -/

theorem xtime_xor (a b : Byte) : xtime (a ^^^ b) = xtime a ^^^ xtime b := by
  have hpoly : ∀ p q : Bool, (if (p ^^ q) = true then (0x1b : Byte) else 0) =
      (if p = true then 0x1b else 0) ^^^ (if q = true then 0x1b else 0) := by decide
  rw [xtime, BitVec.getLsbD_xor, BitVec.shiftLeft_xor_distrib, hpoly, xtime, xtime]
  ac_rfl

theorem xtimes_xor (i : Nat) (a b : Byte) : xtimes i (a ^^^ b) = xtimes i a ^^^ xtimes i b := by
  induction i generalizing a b with
  | zero => rfl
  | succ i ih => rw [xtimes, xtime_xor, ih]; rfl

/-- Multiplication by `b` is linear, over the bits of `b` in any list. -/
theorem foldl_xtimes_xor (b x y : Byte) (l : List Nat) (p q : Byte) :
    l.foldl (fun acc i => if b.getLsbD i then acc ^^^ xtimes i (x ^^^ y) else acc) (p ^^^ q) =
      l.foldl (fun acc i => if b.getLsbD i then acc ^^^ xtimes i x else acc) p ^^^
        l.foldl (fun acc i => if b.getLsbD i then acc ^^^ xtimes i y else acc) q := by
  induction l generalizing p q with
  | nil => rfl
  | cons i l ih =>
    simp only [List.foldl_cons]
    split
    · rw [xtimes_xor, ← ih]
      congr 1
      ac_rfl
    · exact ih p q

theorem gmul_xor (b x y : Byte) : gmul b (x ^^^ y) = gmul b x ^^^ gmul b y :=
  foldl_xtimes_xor b x y (List.range 8) 0 0

/-- The inverse in GF(2^8), 0 at 0: R122's affine map undone on the S-box. -/
def gfInv (a : Byte) : Byte := (sbox a).rotateLeft 1 ^^^ (sbox a).rotateLeft 3 ^^^ (sbox a).rotateLeft 6 ^^^ 0x05

theorem gmul_gfInv : ∀ a : Byte, if a = 0 then gfInv a = 0 else gmul a (gfInv a) = 1 := by decide +kernel

theorem sbox_eq_affine_gfInv : ∀ a : Byte, sbox a = gfInv a ^^^ (gfInv a).rotateLeft 1 ^^^ (gfInv a).rotateLeft 2 ^^^
    (gfInv a).rotateLeft 3 ^^^ (gfInv a).rotateLeft 4 ^^^ 0x63 := by decide +kernel

theorem invSbox_sbox : ∀ a : Byte, invSbox (sbox a) = a := by decide +kernel

/-! ### Blocks by column and row -/

/-- Row `r` of column `c` of a block. -/
def cell (s : Block) (c r : Fin 4) : Byte := s[4 * c.val + r.val]

theorem block_ext {s t : Block} (h : ∀ c r, cell s c r = cell t c r) : s = t := by
  refine Vector.ext fun i hi => ?_
  have hcell := h ⟨i / 4, by omega⟩ ⟨i % 4, by omega⟩
  simpa only [cell, Nat.div_add_mod] using hcell

theorem column_index (c r : Fin 4) : (4 * c.val + r.val) / 4 = c.val := by omega

theorem row_index (c r : Fin 4) : (4 * c.val + r.val) % 4 = r.val := by omega

@[simp] theorem cell_subBytes (s : Block) (c r : Fin 4) : cell (subBytes s) c r = sbox (cell s c r) :=
  Vector.getElem_map ..

@[simp] theorem cell_invSubBytes (s : Block) (c r : Fin 4) : cell (invSubBytes s) c r = invSbox (cell s c r) :=
  Vector.getElem_map ..

@[simp] theorem cell_xorBlock (s t : Block) (c r : Fin 4) : cell (xorBlock s t) c r = cell s c r ^^^ cell t c r :=
  Vector.getElem_zipWith ..

@[simp] theorem cell_shiftRows (s : Block) (c r : Fin 4) : cell (shiftRows s) c r = cell s (c + r) r := by
  simp only [cell, shiftRows, Vector.getElem_ofFn, column_index, row_index, Fin.val_add, Nat.add_comm r.val]

@[simp] theorem cell_invShiftRows (s : Block) (c r : Fin 4) : cell (invShiftRows s) c r = cell s (c - r) r := by
  have hsub : (c.val + 4 - r.val) % 4 = (c - r).val := by rw [Fin.sub_def]; dsimp only; omega
  simp only [cell, invShiftRows, Vector.getElem_ofFn, column_index, row_index, hsub, Nat.add_comm r.val]

@[simp] theorem cell_mixWith (m0 m1 m2 m3 : Byte) (s : Block) (c r : Fin 4) : cell (mixWith m0 m1 m2 m3 s) c r =
    gmul m0 (cell s c r) ^^^ gmul m1 (cell s c (r + 1)) ^^^ gmul m2 (cell s c (r + 2)) ^^^
      gmul m3 (cell s c (r + 3)) := by
  simp only [cell, mixWith, Vector.getElem_ofFn, column_index, row_index]
  rfl

/-! ### Each transformation is undone by its inverse (R126) -/

theorem invSubBytes_subBytes (s : Block) : invSubBytes (subBytes s) = s :=
  block_ext fun c r => by rw [cell_invSubBytes, cell_subBytes, invSbox_sbox]

theorem invShiftRows_shiftRows (s : Block) : invShiftRows (shiftRows s) = s :=
  block_ext fun c r => by rw [cell_invShiftRows, cell_shiftRows, sub_add_cancel]

theorem xorBlock_cancel_right (s t : Block) : xorBlock (xorBlock s t) t = s :=
  block_ext fun c r => by simp

/-- The product of R126's first row with each column of R125's matrix, on one byte. -/
theorem invMix_mix_byte : ∀ a : Byte,
    gmul 14 (gmul 2 a) ^^^ gmul 11 (gmul 1 a) ^^^ gmul 13 (gmul 1 a) ^^^ gmul 9 (gmul 3 a) = a ∧
    gmul 14 (gmul 3 a) ^^^ gmul 11 (gmul 2 a) ^^^ gmul 13 (gmul 1 a) ^^^ gmul 9 (gmul 1 a) = 0 ∧
    gmul 14 (gmul 1 a) ^^^ gmul 11 (gmul 3 a) ^^^ gmul 13 (gmul 2 a) ^^^ gmul 9 (gmul 1 a) = 0 ∧
    gmul 14 (gmul 1 a) ^^^ gmul 11 (gmul 1 a) ^^^ gmul 13 (gmul 3 a) ^^^ gmul 9 (gmul 2 a) = 0 := by
  decide +kernel

/-- One byte of a column after both mixings: the sixteen products, sorted by the byte they take. -/
theorem invMix_mix_column (a b c d : Byte) :
    gmul 14 (gmul 2 a ^^^ gmul 3 b ^^^ gmul 1 c ^^^ gmul 1 d) ^^^
      gmul 11 (gmul 2 b ^^^ gmul 3 c ^^^ gmul 1 d ^^^ gmul 1 a) ^^^
      gmul 13 (gmul 2 c ^^^ gmul 3 d ^^^ gmul 1 a ^^^ gmul 1 b) ^^^
      gmul 9 (gmul 2 d ^^^ gmul 3 a ^^^ gmul 1 b ^^^ gmul 1 c) = a := by
  obtain ⟨ha, -, -, -⟩ := invMix_mix_byte a
  obtain ⟨-, hb, -, -⟩ := invMix_mix_byte b
  obtain ⟨-, -, hc, -⟩ := invMix_mix_byte c
  obtain ⟨-, -, -, hd⟩ := invMix_mix_byte d
  simp only [gmul_xor]
  calc _ = (gmul 14 (gmul 2 a) ^^^ gmul 11 (gmul 1 a) ^^^ gmul 13 (gmul 1 a) ^^^ gmul 9 (gmul 3 a)) ^^^
        (gmul 14 (gmul 3 b) ^^^ gmul 11 (gmul 2 b) ^^^ gmul 13 (gmul 1 b) ^^^ gmul 9 (gmul 1 b)) ^^^
        (gmul 14 (gmul 1 c) ^^^ gmul 11 (gmul 3 c) ^^^ gmul 13 (gmul 2 c) ^^^ gmul 9 (gmul 1 c)) ^^^
        (gmul 14 (gmul 1 d) ^^^ gmul 11 (gmul 1 d) ^^^ gmul 13 (gmul 3 d) ^^^ gmul 9 (gmul 2 d)) := by ac_rfl
    _ = a := by rw [ha, hb, hc, hd]; simp

theorem invMixColumns_mixColumns (s : Block) : invMixColumns (mixColumns s) = s := by
  refine block_ext fun c r => ?_
  have hrow : r + 1 + 1 = r + 2 ∧ r + 1 + 2 = r + 3 ∧ r + 1 + 3 = r ∧ r + 2 + 1 = r + 3 ∧ r + 2 + 2 = r ∧
      r + 2 + 3 = r + 1 ∧ r + 3 + 1 = r ∧ r + 3 + 2 = r + 1 ∧ r + 3 + 3 = r + 2 := by omega
  simp only [invMixColumns, mixColumns, cell_mixWith, hrow]
  exact invMix_mix_column ..

/-! ### The cipher and its inverse (R125, R126) -/

/-- The rounds of the cipher with the last one on the outside. -/
theorem encRounds_succ_last (w : List Quad) (n r : Nat) (s : Block) : encRounds w (n + 1) r s =
    xorBlock (mixColumns (shiftRows (subBytes (encRounds w n r s)))) (roundKey w (r + n)) := by
  induction n generalizing r s with
  | zero => rfl
  | succ n ih => rw [encRounds, ih, Nat.add_right_comm]; rfl

/-- The inverse cipher meets the rounds from the last to the first, each between SubBytes and ShiftRows. -/
theorem decRounds_encRounds (w : List Quad) (n : Nat) (s : Block) :
    decRounds w n (shiftRows (subBytes (encRounds w n 1 s))) = shiftRows (subBytes s) := by
  induction n with
  | zero => rfl
  | succ n ih =>
    rw [decRounds, invShiftRows_shiftRows, invSubBytes_subBytes, encRounds_succ_last, Nat.add_comm 1 n,
      xorBlock_cancel_right, invMixColumns_mixColumns, ih]

theorem aesDec_aesEnc (k p : Block) : aesDec k (aesEnc k p) = p := by
  simp only [aesDec, aesEnc, xorBlock_cancel_right, decRounds_encRounds, invShiftRows_shiftRows, invSubBytes_subBytes]

end Sys2Proof.Machine
end

section
/-! PROOFS of the family 41_crypto. Byte strings, the counter-mode transform and AES-CMAC (R127, R130, R131). -/

namespace Sys2Proof.Machine

/-! ### Bytes of strings and blocks -/

theorem byteAt_append (s t : Bytes) (i : Nat) :
    byteAt (s ++ t) i = if i < s.length then byteAt s i else byteAt t (i - s.length) := by
  simp only [byteAt, List.getD_eq_getElem?_getD, List.getElem?_append]
  split <;> rfl

theorem byteAt_zeros (n i : Nat) : byteAt (zeros n) i = 0 := List.getElem?_getD_replicate_default_eq 0 n i

theorem byteAt_take {i n : Nat} (h : i < n) (s : Bytes) : byteAt (s.take n) i = byteAt s i := by
  simp only [byteAt, List.getD_eq_getElem?_getD, List.getElem?_take_of_lt h]

theorem byteAt_xorBytes {s t : Bytes} {i : Nat} (hs : i < s.length) (ht : i < t.length) :
    byteAt (xorBytes s t) i = byteAt s i ^^^ byteAt t i := by
  simp [byteAt, xorBytes, List.getD_eq_getElem?_getD, hs, ht]

theorem xorBytes_cancel_right {s t : Bytes} (h : s.length = t.length) : xorBytes (xorBytes s t) t = s := by
  refine List.ext_getElem (by simp [h]) fun i hi _ => ?_
  simp [xorBytes]

theorem byteAt_toList (b : Block) (i : Fin 16) : byteAt b.toList i = b[i] := by
  simp [byteAt, List.getD_eq_getElem?_getD]

/-- A block read off a string whose bytes there are those of `b`. -/
theorem blockAt_eq {s : Bytes} {i : Nat} {b : Block} (h : ∀ j : Fin 16, byteAt s (i + j) = byteAt b.toList j) :
    blockAt s i = b := by
  refine Vector.ext fun j hj => ?_
  rw [blockAt, Vector.getElem_ofFn, h ⟨j, hj⟩, byteAt_toList]
  rfl

theorem toList_blockOf {s : Bytes} (h : s.length = 16) : (blockOf s).toList = s := by
  refine List.ext_getElem (by simp [h]) fun i _ hi => ?_
  simp [blockOf, blockAt, byteAt, List.getD_eq_getElem?_getD, hi]

theorem flatMap_blocks_length (g : Nat → Block) (n : Nat) :
    ((List.range n).flatMap fun j => (g j).toList).length = 16 * n := by
  simp [List.length_flatMap, Nat.mul_comm]

/-- Byte `x` of a string of blocks is byte `x mod 16` of block `x / 16`. -/
theorem byteAt_flatMap_blocks (g : Nat → Block) {n x : Nat} (h : x < 16 * n) :
    byteAt ((List.range n).flatMap fun j => (g j).toList) x = byteAt (g (x / 16)).toList (x % 16) := by
  induction n with
  | zero => omega
  | succ n ih =>
    rw [List.range_succ, List.flatMap_append, byteAt_append, flatMap_blocks_length, List.flatMap_singleton]
    split
    · exact ih ‹_›
    · rw [show x / 16 = n by omega, show x % 16 = x - 16 * n by omega]

/-! ### ECB (R140, R141) -/

@[simp] theorem ecb_length (f : Block → Block → Block) (k : Block) (n : Nat) (p : Bytes) :
    (ecb f k n p).length = 16 * n := flatMap_blocks_length _ n

/-- Every block of the result is the cipher of the block at its place. -/
theorem blockAt_ecb (f : Block → Block → Block) (k : Block) (p : Bytes) {n j : Nat} (h : j < n) :
    blockAt (ecb f k n p) (16 * j) = f k (blockAt p (16 * j)) := by
  refine blockAt_eq fun i => ?_
  rw [ecb, byteAt_flatMap_blocks _ (by omega), show (16 * j + i.val) / 16 = j by omega,
    show (16 * j + i.val) % 16 = i.val by omega]

/-! ### The counter-mode transform (R127) -/

@[simp] theorem ctr_length (k : Block) (c : Byte) (d : Dir) (a f : Word) (single : Bool) (data : Bytes) :
    (ctr k c d a f single data).length = data.length := by simp [ctr]

theorem ctr_ctr (k : Block) (c : Byte) (d : Dir) (a f : Word) (single : Bool) (data : Bytes) :
    ctr k c d a f single (ctr k c d a f single data) = data := by
  rw [ctr, ctr_length, ctr, xorBytes_cancel_right (by rw [keystream_length])]

theorem dirByte_eq (d : Dir) : dirByte d = if d = .down then 1 else 0 := by cases d <;> rfl

/-- Byte `x` of the keystream is byte `x mod 16` of the block with counter byte `x / 16 + 1`, or 0 in single mode. -/
theorem byteAt_keystream (k : Block) (c : Byte) (d : Dir) (a f : Word) (single : Bool) {n x : Nat} (h : x < n) :
    byteAt (keystream k c d a f single n) x =
      byteAt (aesEnc k (blockOf (blockA c d a f (if single then 0 else x / 16 + 1)))).toList (x % 16) := by
  have hblocks := ceilDiv_mul_ge n 16 (by decide)
  rw [keystream, byteAt_take h, byteAt_flatMap_blocks _ (by omega)]

theorem byteAt_ctr (k : Block) (c : Byte) (d : Dir) (a f : Word) (single : Bool) {data : Bytes} {x : Nat}
    (h : x < data.length) : byteAt (ctr k c d a f single data) x = byteAt data x ^^^
      byteAt (aesEnc k (blockOf (blockA c d a f (if single then 0 else x / 16 + 1)))).toList (x % 16) := by
  rw [ctr, byteAt_xorBytes h (by rwa [keystream_length]), byteAt_keystream _ _ _ _ _ _ h]

/-! ### Blocks as 128-bit numbers (R130) -/

theorem leVal_append (s t : Bytes) : leVal (s ++ t) = leVal s + 256 ^ s.length * leVal t := by
  induction s with
  | nil => simp [leVal]
  | cons b s ih => simp [leVal, ih, Nat.pow_succ]; ring

theorem beVal_cons (b : Byte) (s : Bytes) : beVal (b :: s) = beVal s + 256 ^ s.length * b.toNat := by
  simp [beVal, leVal_append, leVal]

theorem beVal_lt (s : Bytes) : beVal s < 256 ^ s.length := by simpa [beVal] using leVal_lt s.reverse

/-- The number a block spells, byte 0 the most significant. -/
def blockNum (b : Block) : BitVec 128 := BitVec.ofNat 128 (beVal b.toList)

theorem blockNum_toNat (b : Block) : (blockNum b).toNat = beVal b.toList := by
  have hlt := beVal_lt b.toList
  rw [Vector.length_toList] at hlt
  exact Nat.mod_eq_of_lt hlt

/-- The top bit of the number is the top bit of byte 0. -/
theorem blockNum_msb (b : Block) : (blockNum b).msb = b[0].getLsbD 7 := by
  obtain ⟨c, s, hs⟩ : ∃ c s, b.toList = c :: s := List.exists_cons_of_length_pos (by simp)
  have hlen : s.length = 15 := by simpa [hs] using b.length_toList
  have hc : b[0] = c := by rw [← Vector.getElem_toList (by simp)]; simp [hs]
  have hlt := beVal_lt s
  rw [BitVec.msb_eq_decide, blockNum_toNat, hs, beVal_cons, hc, ← BitVec.msb_eq_getLsbD_last c, BitVec.msb_eq_decide]
  rw [hlen] at hlt ⊢
  exact decide_eq_decide.2 (by omega)

/-- `dbl` is the doubling of the number, reduced by 0x87 (R130). -/
theorem blockNum_dbl (b : Block) :
    blockNum (dbl b) = (blockNum b <<< 1) ^^^ if (blockNum b).msb = true then 0x87 else 0 := by
  have hbytes (v : Nat) : blockNum (blockOf (beBytes 16 v)) = BitVec.ofNat 128 v := by
    rw [blockNum, toList_blockOf (beBytes_length 16 v), beVal_beBytes]
    exact BitVec.eq_of_toNat_eq (by simp)
  rw [dbl, hbytes, ← blockNum_msb, BitVec.ofNat_xor]
  congr 1
  · exact BitVec.eq_of_toNat_eq (by simp [blockNum_toNat, Nat.shiftLeft_eq])
  · split <;> rfl

/-! ### CMAC (R131) -/

/-- The number of blocks of CMAC: 1 for the empty string. -/
theorem cmacBlocks_eq (n : Nat) : max 1 (ceilDiv n 16) = if n = 0 then 1 else (n + 15) / 16 := by
  simp only [ceilDiv]
  split <;> omega

/-- The chaining value of CMAC after `i` blocks of the message. -/
def cmacChain (k : Block) (m : Bytes) (i : Nat) : Block :=
  (List.range i).foldl (fun x i => aesEnc k (xorBlock x (blockAt m (16 * i)))) (Vector.replicate 16 0)

theorem cmacChain_succ (k : Block) (m : Bytes) (i : Nat) :
    cmacChain k m (i + 1) = aesEnc k (xorBlock (cmacChain k m i) (blockAt m (16 * i))) := by
  rw [cmacChain, List.range_succ, List.foldl_append]
  rfl

theorem xorBlock_eq_ofFn (s t : Block) : xorBlock s t = Vector.ofFn fun j => s[j] ^^^ t[j] := by
  ext i hi
  simp [xorBlock]

/-- The bytes of the last block: the string itself, padded with 0x80 and zeros when it is short, xored with its key. -/
theorem cmacLast_getElem (k : Block) (r : Bytes) (j : Fin 16) : (cmacLast k r)[j] =
    if r.length = 16 then r.getD j.val 0 ^^^ (cmacK1 k)[j]
    else (if j.val < r.length then r.getD j.val 0 else if j.val = r.length then 0x80 else 0) ^^^ (cmacK2 k)[j] := by
  unfold cmacLast
  split
  · simp [xorBlock_eq_ofFn, blockOf, blockAt, byteAt]
  · simp only [xorBlock_eq_ofFn, blockOf, blockAt, Fin.getElem_fin, Vector.getElem_ofFn, byteAt_append,
      List.append_assoc, byteAt_zeros, Nat.zero_add]
    congr 1
    split
    · rfl
    · by_cases hj : j.val = r.length
      · simp [hj, byteAt]
      · rw [if_neg hj, if_neg (by simp; omega)]

end Sys2Proof.Machine
end

section
/-! PROOFS of the family 41_crypto. The crypto commands, each as its checks in order and its effects (R140-R147). -/

namespace Sys2Proof.Machine

/-! ### Checks -/

/-- A check that fails ends the command in its code; the rest goes on when it passes (R301). -/
theorem complete_check {c : Prop} [Decidable c] {e : Code} (he : e ≠ .ok) (s : State) (x : Except Code State) :
    complete s (if c then .error e else x) = if c then .next (errState e s) else complete s x := by
  split
  · rw [complete, epilogue_error e he]
  · rfl

theorem complete_ok (s t : State) : complete s (.ok t) = .next (okState t) := rfl

theorem not_inRam_iff (a n : Nat) : (!inRam a n) = true ↔ 512 < a + n := by rw [inRam_eq, pastRam, decide_eq_true_iff]

/-! ### Commands over ranges of frame RAM (R140-R144) -/

/-- Both ECB commands: the two checks, then the ciphered blocks stored at DST. -/
theorem exec_of_ecbCommand {f : Block → Block → Block} {ks : Fin 8} {len : Nat} {s : State} {i : Instr}
    (hi : commandOf i s = ecbCommand f ks len s) :
    exec i s = if len % 16 ≠ 0 then .next (errState .config s)
      else if 512 < srcOff s + len ∨ 512 < dstOff s + len then .next (errState .bounds s)
      else .next (okState (memWrite s (dstOff s) (ecb f (key s ks) (len / 16) (memRead s (srcOff s) len)))) := by
  simp only [exec_eq_complete, hi, ecbCommand, Bool.or_eq_true, not_inRam_iff, complete_check (e := .config) nofun,
    complete_check (e := .bounds) nofun, complete_ok]

theorem ecbStored_ecb (f : Block → Block → Block) (ks : Fin 8) {len : Nat} {s : State} (hlen : len % 16 = 0)
    (hfit : dstOff s + len ≤ 512) : EcbStored f ks len s
      (memWrite s (dstOff s) (ecb f (key s ks) (len / 16) (memRead s (srcOff s) len))).ram := by
  have hsize : (ecb f (key s ks) (len / 16) (memRead s (srcOff s) len)).length = len := by rw [ecb_length]; omega
  have hram : dstOff s + (ecb f (key s ks) (len / 16) (memRead s (srcOff s) len)).length ≤ Config.ramSize := by
    rwa [hsize]
  constructor
  · intro j hj
    have hread := memRead_memWrite_same s (dstOff s) _ hram
    rw [hsize] at hread
    exact (congrArg (blockAt · (16 * j)) hread).trans (blockAt_ecb f (key s ks) _ hj)
  · intro x hx
    exact (stored_writeBytes _ _ _ hram).outside x (by rwa [hsize])

theorem exec_ctrCrypt (ks : Fin 8) (dir : Dir) (single : Bool) (len : Nat) (s : State) :
    exec (.ctrCrypt ks dir single len) s = if single = true ∧ 16 < len then .next (errState .config s)
      else if 512 < srcOff s + len ∨ 512 < dstOff s + len then .next (errState .bounds s)
      else .next (okState (memWrite s (dstOff s) (ctr (key s ks) (BitVec.ofNat 8 (bits s.regs.aux0 7 0)) dir
        s.regs.devAddr s.regs.fcnt single (memRead s (srcOff s) len)))) := by
  simp only [exec_eq_complete, commandOf, Bool.and_eq_true, decide_eq_true_iff, Bool.or_eq_true, not_inRam_iff,
    complete_check (e := .config) nofun, complete_check (e := .bounds) nofun, complete_ok]

theorem exec_cmac (ks : Fin 8) (len : Nat) (s : State) :
    exec (.cmac ks len) s = if 512 < srcOff s + len then .next (errState .bounds s)
      else .next (okState (setTag s (cmac (key s ks) (memRead s (srcOff s) len)).toList)) := by
  simp only [exec_eq_complete, commandOf, not_inRam_iff, complete_check (e := .bounds) nofun, complete_ok]

theorem micValue_length (ks : Fin 8) (dir : Dir) (rev : Rev) (s : State) (msg : Bytes) :
    (micValue ks dir rev s msg).length = 4 := by
  unfold micValue
  split
  · exact micUp11_length ..
  · exact micNet_length ..

theorem exec_mic (ks : Fin 8) (dir : Dir) (rev : Rev) (append verify : Bool) (len : Nat) (s : State) :
    exec (.mic ks dir rev append verify len) s =
      if append = true ∧ verify = true then .next (errState .config s)
      else if 512 < srcOff s + len + (if append = true ∨ verify = true then 4 else 0) then
        .next (errState .bounds s)
      else if verify = true ∧ memRead s (srcOff s + len) 4 ≠ micValue ks dir rev s (memRead s (srcOff s) len) then
        .next (errState .mic s)
      else .next (okState (setRes0
        (if append = true then
          memWrite s (srcOff s + len) (micValue ks dir rev s (memRead s (srcOff s) len)) else s)
        (leVal (micValue ks dir rev s (memRead s (srcOff s) len))))) := by
  simp only [exec_eq_complete, commandOf, micCommand, Bool.and_eq_true, decide_eq_true_iff, Bool.or_eq_true,
    not_inRam_iff, ← Nat.add_assoc, complete_check (e := .config) nofun, complete_check (e := .bounds) nofun,
    complete_check (e := .mic) nofun, complete_ok]

/-! ### Commands that write key slots (R145-R147) -/

theorem exec_kdf (ks : Fin 8) (len : Nat) (s : State) :
    exec (.kdf ks len) s = if 15 < len then .next (errState .config s)
      else if 512 < srcOff s + len then .next (errState .bounds s)
      else .next (okState (setKey s (slotField s.regs.aux1 0) (aesEnc (key s ks)
        (blockOf ([BitVec.ofNat 8 (bits s.regs.aux0 7 0)] ++ memRead s (srcOff s) len ++ zeros (15 - len)))))) := by
  simp only [exec_eq_complete, commandOf, not_inRam_iff, complete_check (e := .config) nofun,
    complete_check (e := .bounds) nofun, complete_ok]

/-- A slot number of a register is its three bits. -/
theorem eq_slotField_iff (v : Word) (n : Fin 8) : n = slotField v 0 ↔ n.val = bits v 2 0 := Fin.ext_iff

end Sys2Proof.Machine
end

section
/-! PROOFS of the family 41_crypto. The settled statements. -/

namespace Sys2Proof.Machine.Crypto

/-- Settles O13: every transformation of the cipher is undone by its inverse, from the last round to the first. -/
theorem aesDecInvertsAesEnc : Obligations.AesDecInvertsAesEnc := by
  unfold Obligations.AesDecInvertsAesEnc
  exact aesDec_aesEnc

/-- Settles O14: what is stored at DST is a string of blocks, each the cipher of the block at its place. -/
theorem ecbCommands : Obligations.EcbCommands := by
  unfold Obligations.EcbCommands
  intro ks len s
  have henc : commandOf (.aesEnc ks len) s = ecbCommand aesEnc ks len s := rfl
  have hdec : commandOf (.aesDec ks len) s = ecbCommand aesDec ks len s := rfl
  rw [exec_of_ecbCommand henc, exec_of_ecbCommand hdec]
  split_ifs with hlen hfit
  · exact ⟨rfl, rfl⟩
  · exact ⟨rfl, rfl⟩
  · have hstored (f : Block → Block → Block) := ecbStored_ecb f ks (s := s) (len := len) (by omega) (by omega)
    exact ⟨⟨_, rfl, hstored aesEnc⟩, _, rfl, hstored aesDec⟩

/-- Settles O15: the number a block spells turns `dbl` into the doubling of R130, and the tag is read off `cmac` with
its chaining values. -/
theorem cmacTagAndCommand : Obligations.CmacTagAndCommand := by
  unfold Obligations.CmacTagAndCommand
  refine ⟨fun ks len s => ?_, fun k m => ⟨cmacK1 k, cmacK2 k, cmacChain k m, blockNum_dbl _, blockNum_dbl _, rfl,
    fun i _ => ?_, ?_⟩, fun kf ks dir devAddr fcnt conf txDr txCh msg => ⟨?_, rfl⟩⟩
  · rw [exec_cmac]
    split <;> rfl
  · rw [cmacChain_succ, xorBlock_eq_ofFn]
    simp only [blockAt, byteAt, Fin.getElem_fin, Vector.getElem_ofFn]
  · simp only [cmac, cmacBlocks_eq, xorBlock_eq_ofFn, ← cmacLast_getElem, cmacChain]
  · cases dir <;> rfl

/-- Settles O16: the stored string is the one `memWrite` writes. -/
theorem ctrCryptCommand : Obligations.CtrCryptCommand := by
  unfold Obligations.CtrCryptCommand
  intro ks dir single len s
  rw [exec_ctrCrypt]
  split_ifs with hsingle hfit
  · rfl
  · rfl
  · refine ⟨_, rfl, stored_writeBytes _ _ _ ?_⟩
    rw [ctr_length, memRead_length, Config.ramSize]
    omega

/-- Settles O17: the two keystreams of the inverse are one string, and its byte `x` lies in block `x / 16`. -/
theorem ctrIsItsOwnInverse : Obligations.CtrIsItsOwnInverse := by
  unfold Obligations.CtrIsItsOwnInverse
  refine ⟨fun k c d a f single data => ⟨ctr_length .., ctr_ctr ..⟩, fun k c d a f single data x hx => ?_⟩
  rw [byteAt_ctr _ _ _ _ _ _ hx, blockA, dirByte_eq]
  cases single <;> rfl

/-- Settles O18: the MIC of the statement is `micValue`, and each check and effect stands in the command. -/
theorem micCommand : Obligations.MicCommand := by
  unfold Obligations.MicCommand
  intro ks dir rev append verify len s i msg m
  have hi : exec i s = _ := exec_mic ks dir rev append verify len s
  have hm : m = micValue ks dir rev s msg := rfl
  have htrailer : append = true → (if append = true ∨ verify = true then 4 else 0) = 4 := fun h => if_pos (.inl h)
  rw [hi, hm]
  generalize (if append = true ∨ verify = true then 4 else 0) = trailer at htrailer ⊢
  split_ifs with hboth hfit hmic happend
  · rfl
  · rfl
  · rfl
  · refine ⟨_, rfl, stored_writeBytes _ _ _ ?_⟩
    rw [htrailer happend] at hfit
    rw [micValue_length, Config.ramSize]
    omega
  · exact ⟨_, rfl, rfl⟩

/-- Settles O19: the slot AUX1[2:0] is the one that `setKey` writes. -/
theorem kdfCommand : Obligations.KdfCommand := by
  unfold Obligations.KdfCommand
  intro ks len s
  rw [exec_kdf]
  split_ifs with hlen hfit
  · rfl
  · rfl
  · refine ⟨(setKey s (slotField s.regs.aux1 0) _).keys, rfl, fun n => (key_setKey s _ n _).trans ?_⟩
    simp only [eq_slotField_iff]

/-- Settles O20: the four writes are of distinct slots, with values computed from the state before them. -/
theorem deriveSessionCommand : Obligations.DeriveSessionCommand := by
  unfold Obligations.DeriveSessionCommand
  intro rev s
  cases rev with
  | r10 =>
    refine ⟨(deriveSession10 s).keys, rfl, ?_⟩
    simp [deriveSession10, key, blk10]
  | r11 =>
    refine ⟨(deriveSession11 s).keys, rfl, ?_⟩
    simp [deriveSession11, key, blk11]

/-- Settles O12: the inverse in GF(2^8) is R122's affine map undone on the S-box, checked byte by byte. -/
theorem sboxIsInverseThenAffine : Obligations.SboxIsInverseThenAffine := by
  unfold Obligations.SboxIsInverseThenAffine
  exact fun a => ⟨gfInv a, gmul_gfInv a, sbox_eq_affine_gfInv a, invSbox_sbox a⟩

/-- Settles O21: slots 6 and 7 are the ones written. -/
theorem deriveJsCommand : Obligations.DeriveJsCommand := by
  unfold Obligations.DeriveJsCommand
  intro s
  refine ⟨rfl, (setKey (setKey s 6 _) 7 _).keys, rfl, fun n hn => ?_, ?_⟩
  · refine (key_setKey _ _ n _).trans ?_
    rw [if_neg (by omega), key_setKey, if_neg (by omega)]
  · simp [blkJs]

end Sys2Proof.Machine.Crypto
end

section
/-! PROOFS of the family 42_codec. Endian conversion, FCtrl, the inferred counter and the XOR-fold checksum, each
command as its checks in order and its effects (R177, R178, R180-R185, R210-R213). -/

namespace Sys2Proof.Machine

/-! ### How a command ends (R101, R301) -/

theorem errState_ne_okState {c : Code} (hc : c ≠ .ok) (s t : State) : errState c s ≠ okState t :=
  fun h => hc (congrArg (fun u => u.regs.err) h)

/-- A command that ends with STATUS.ERR = 0 has its effects: no check raises code 0. -/
theorem exec_accepted {i : Instr} {s t : State} (h : exec i s = .next t) (herr : t.regs.err = .ok) :
    ∃ u, commandOf i s = .ok u ∧ t = okState u := by
  have hends := commandOf_ends s i
  rcases exec_next_cases h with ⟨u, hu, rfl⟩ | ⟨c, hc, rfl⟩
  · exact ⟨u, hu, rfl⟩
  · rw [hc] at hends
    obtain rfl : c = .ok := herr
    exact absurd hends.1 (by decide)

/-- A command with a check that succeeds has passed it. -/
theorem check_passed {c : Prop} [Decidable c] {e : Code} {x : Except Code State} {u : State}
    (h : (if c then .error e else x) = .ok u) : ¬ c ∧ x = .ok u := by
  split at h
  · cases h
  · exact ⟨‹_›, h⟩

/-- One check of a statement against the same check of the command; the rest may use that it passed. -/
theorem check_agrees {c P : Prop} {x e y : Host.Outcome State Fault Refusal} [Decidable c]
    (hx : x = if c then e else y) (hrest : ¬ c → x = y → P) : if c then x = e else P := by
  split
  · rwa [if_pos ‹_›] at hx
  · exact hrest ‹_› (by rwa [if_neg ‹_›] at hx)

/-- No check fails exactly when every check of the list passes. -/
theorem firstFailure_eq_none_iff (l : List (Bool × Code)) : firstFailure l = none ↔ ∀ x ∈ l, x.1 = false := by
  induction l with
  | nil => simp [firstFailure]
  | cons x l ih =>
    obtain ⟨failed, c⟩ := x
    cases failed
    · simpa [firstFailure] using ih
    · simp [firstFailure]

theorem inRam_eq_false_iff (a n : Nat) : inRam a n = false ↔ 512 < a + n := by
  rw [← not_inRam_iff, Bool.not_eq_true']

/-! ### Strings written in frame RAM (R10, R103) -/

theorem memRead_memWrite_of_length {a n : Nat} {bs : Bytes} (hlen : bs.length = n) (hfit : a + n ≤ 512) (s : State) :
    memRead (memWrite s a bs) a n = bs := by
  subst hlen
  exact memRead_memWrite_same s a bs hfit

theorem stored_of_length_le {a n : Nat} {bs : Bytes} (hlen : bs.length ≤ n) (hfit : a + n ≤ 512) (m : Memory) :
    Stored m (m.writeBytes a bs) a bs :=
  stored_writeBytes m a bs (by rw [Config.ramSize]; omega)

/-! ### Byte order (R9, R180-R183) -/

theorem beBytes_eq_ofFn (n v : Nat) :
    beBytes n v = List.ofFn fun i : Fin n => BitVec.ofNat 8 (v / 256 ^ (n - 1 - i.val)) := by
  refine List.ext_getElem (by simp) fun i hi _ => ?_
  simp [beBytes, leBytes_eq_ofFn]

theorem memRead_succ (s : State) (a n : Nat) : memRead s a (n + 1) = ramByte s a :: memRead s (a + 1) n := by
  simp [memRead, List.range_succ_eq_map, Function.comp_def, Nat.add_assoc, Nat.add_comm 1]

/-- A big-endian read is the sum of its bytes' place values. -/
theorem beVal_memRead (s : State) (a n : Nat) :
    beVal (memRead s a n) = ((List.range n).map fun i => (ramByte s (a + i)).toNat * 256 ^ (n - 1 - i)).sum := by
  induction n generalizing a with
  | zero => rfl
  | succ n ih =>
    have hplace (i : Nat) : n + 1 - 1 - (i + 1) = n - 1 - i := by omega
    rw [memRead_succ, beVal_cons, ih, memRead_length, List.range_succ_eq_map]
    simp only [List.map_cons, List.map_map, Function.comp_def, List.sum_cons, Nat.add_zero, Nat.sub_zero,
      Nat.succ_eq_add_one, hplace, Nat.add_assoc, Nat.add_comm 1]
    rw [Nat.add_sub_cancel, Nat.add_comm, Nat.mul_comm]

theorem beVal_memRead_lt (s : State) (a n : Nat) : beVal (memRead s a n) < 256 ^ n := by
  simpa using beVal_lt (memRead s a n)

theorem leVal_memRead_lt (s : State) (a n : Nat) : leVal (memRead s a n) < 256 ^ n := by
  simpa using leVal_lt (memRead s a n)

/-- The two halves of VAL spell a number of at most 8 bytes (R182). -/
theorem halves_eq {v len : Nat} (hv : v < 256 ^ len) (hlen : len ≤ 8) :
    (word (v / 2 ^ 32)).toNat * 2 ^ 32 + (word v).toNat = v := by
  have hpow : 256 ^ len ≤ 256 ^ 8 := Nat.pow_le_pow_right (by decide) hlen
  simp only [word, BitVec.toNat_ofNat]
  omega

theorem lenWidth_iff (len : Nat) : (!lenWidth len) = true ↔ len < 1 ∨ 8 < len := by
  simp only [lenWidth, Bool.not_eq_true', Bool.and_eq_false_iff, decide_eq_false_iff_not]
  omega

section
variable {enc : Nat → Nat → Bytes} {val : Bytes → Nat} {len : Nat} {s : State} {i : Instr}

/-- Both STORE commands: the two checks, then the bytes of VAL at DST. -/
theorem exec_of_storeCommand (hi : commandOf i s = storeCommand enc len s) :
    exec i s = if len < 1 ∨ 8 < len then .next (errState .config s)
      else if 512 < dstOff s + len then .next (errState .bounds s)
      else .next (okState (memWrite s (dstOff s) (enc len (valNum s)))) := by
  simp only [exec_eq_complete, hi, storeCommand, lenWidth_iff, not_inRam_iff, complete_check (e := .config) nofun,
    complete_check (e := .bounds) nofun, complete_ok]

/-- Both LOAD commands: the two checks, then the number at SRC in VAL. -/
theorem exec_of_loadCommand (hi : commandOf i s = loadCommand val len s) :
    exec i s = if len < 1 ∨ 8 < len then .next (errState .config s)
      else if 512 < srcOff s + len then .next (errState .bounds s)
      else .next (okState (setVal s (val (memRead s (srcOff s) len)))) := by
  simp only [exec_eq_complete, hi, loadCommand, lenWidth_iff, not_inRam_iff, complete_check (e := .config) nofun,
    complete_check (e := .bounds) nofun, complete_ok]

/-- LOAD after STORE, for a byte order whose decoder undoes its encoder. -/
theorem load_after_store {j : Instr} {t : State} (henc : ∀ n v, (enc n v).length = n)
    (hval : ∀ n v, val (enc n v) = v % 256 ^ n) (hi : commandOf i s = storeCommand enc len s)
    (hj : ∀ u, commandOf j u = loadCommand val len u) (hsd : srcOff s = dstOff s) (h : exec i s = .next (okState t)) :
    ∃ u, exec j (okState t) = .next u ∧ valNum u = valNum s % 2 ^ (8 * len) := by
  rw [exec_of_storeCommand hi] at h
  split_ifs at h with hlen hfit
  · exact absurd (Host.Outcome.next.inj h) (errState_ne_okState (by decide) s t)
  · exact absurd (Host.Outcome.next.inj h) (errState_ne_okState (by decide) s t)
  · have ht := Host.Outcome.next.inj h
    have hsrc : srcOff (okState t) = dstOff s := by rw [← ht]; exact hsd
    have hread : memRead (okState t) (dstOff s) len = enc len (valNum s) := by
      rw [← ht]
      exact memRead_memWrite_of_length (henc ..) (by omega) s
    have hlt : valNum s % 256 ^ len < 256 ^ len := Nat.mod_lt _ (by positivity)
    rw [exec_of_loadCommand (hj _), if_neg hlen, hsrc, if_neg hfit, hread, hval, Nat.pow_mul]
    exact ⟨_, rfl, halves_eq hlt (by omega)⟩

end

/-! ### FCtrl (R172, R184, R185) -/

theorem bit_lt (v : Word) (i : Nat) : bit v i < 2 := by
  have := bits_lt v i i
  rwa [Nat.add_sub_cancel_left] at this

theorem bit_word {n : Nat} (h : n < 2 ^ 32) (i : Nat) : bit (word n) i = n / 2 ^ i % 2 := by
  rw [bit, bits_word h, Nat.add_sub_cancel_left, Nat.pow_one]

theorem exec_fctrlPack (s : State) :
    exec .fctrlPack s = if 15 < bits s.regs.aux0 15 8 then .next (errState .config s)
      else .next (okState (setRes0 s (fctrlPackValue s.regs.aux0))) := by
  simp only [exec_eq_complete, commandOf, complete_check (e := .config) nofun, complete_ok]

/-- The byte FCTRL_PACK makes, bit by bit (R184). -/
theorem fctrlPackValue_fields {a : Word} (h : bits a 15 8 ≤ 15) :
    let v := word (fctrlPackValue a)
    v.toNat = fctrlPackValue a ∧ v.toNat < 256 ∧ bit v 7 = bit a 0 ∧ bit v 6 = bit a 1 ∧ bit v 5 = bit a 2 ∧
      bit v 4 = bit a 3 ∧ bits v 3 0 = bits a 15 8 := by
  have h0 := bit_lt a 0
  have h1 := bit_lt a 1
  have h2 := bit_lt a 2
  have h3 := bit_lt a 3
  have hlt : fctrlPackValue a < 256 := by unfold fctrlPackValue; omega
  have hw : fctrlPackValue a < 2 ^ 32 := by omega
  have hv : (word (fctrlPackValue a)).toNat = fctrlPackValue a := Nat.mod_eq_of_lt hw
  refine ⟨hv, by omega, ?_, ?_, ?_, ?_, ?_⟩ <;>
    simp only [bit_word hw, bits_word hw] <;> unfold fctrlPackValue <;> omega

/-- The word FCTRL_UNPACK makes, bit by bit (R185). -/
theorem fctrlUnpackValue_fields (a : Word) :
    let v := word (fctrlUnpackValue a)
    bit v 0 = bit a 7 ∧ bit v 1 = bit a 6 ∧ bit v 2 = bit a 5 ∧ bit v 3 = bit a 4 ∧ bits v 7 4 = 0 ∧
      bits v 11 8 = bits a 3 0 ∧ bits v 31 12 = 0 := by
  have h4 := bit_lt a 4
  have h5 := bit_lt a 5
  have h6 := bit_lt a 6
  have h7 := bit_lt a 7
  have h30 : bits a 3 0 < 16 := bits_lt a 3 0
  have hw : fctrlUnpackValue a < 2 ^ 32 := by unfold fctrlUnpackValue; omega
  refine ⟨?_, ?_, ?_, ?_, ?_, ?_, ?_⟩ <;>
    simp only [bit_word hw, bits_word hw] <;> unfold fctrlUnpackValue <;> omega

/-- FCTRL_UNPACK's FOptsLen has four bits, so packing what it made passes the check and returns the byte (R185). -/
theorem fctrlPackValue_fctrlUnpackValue (a : Word) :
    bits (word (fctrlUnpackValue a)) 15 8 ≤ 15 ∧ fctrlPackValue (word (fctrlUnpackValue a)) = bits a 7 0 := by
  obtain ⟨h7, h6, h5, h4, -, hlo, hhi⟩ := fctrlUnpackValue_fields a
  have hfol : bits (word (fctrlUnpackValue a)) 15 8 = bits a 3 0 := by
    simp only [bits] at hlo hhi ⊢
    omega
  have h30 : bits a 3 0 < 16 := bits_lt a 3 0
  refine ⟨by omega, ?_⟩
  rw [fctrlPackValue, h7, h6, h5, h4, hfol]
  simp only [bit, bits]
  omega

/-! ### Frame counters (R177, R210, R211) -/

theorem infer_toNat (l : Word) (f : Nat) : (infer l f).toNat =
    (bits l 31 16 * 2 ^ 16 + f + if f < bits l 15 0 then 2 ^ 16 else 0) % 2 ^ 32 := by
  unfold infer
  simp only [apply_ite BitVec.toNat, word, BitVec.toNat_add, BitVec.toNat_ofNat]
  split <;> omega

theorem toNat_eq_halves (l : Word) : l.toNat = bits l 31 16 * 2 ^ 16 + bits l 15 0 := by
  have := l.isLt
  simp only [bits]
  omega

/-- Inferring from a counter with its own wire value gives it back (R177). -/
theorem infer_self {l : Word} {f : Nat} (h : l.toNat % 2 ^ 16 = f) : infer l f = l := by
  have hl := toNat_eq_halves l
  have hlo : bits l 15 0 < 2 ^ 16 := bits_lt l 15 0
  have := l.isLt
  refine BitVec.eq_of_toNat_eq ?_
  rw [infer_toNat, if_neg (by omega)]
  omega

theorem infer_mod {f : Nat} (h : f < 2 ^ 16) (l : Word) : (infer l f).toNat % 2 ^ 16 = f := by
  rw [infer_toNat]
  split <;> omega

theorem exec_fcntInfer (s : State) :
    exec .fcntInfer s = .next (okState (setRes0 s (infer s.regs.fcnt (bits s.regs.aux0 15 0)).toNat)) := rfl

theorem word_toNat (v : Word) : word v.toNat = v := BitVec.ofNat_toNat 32 v |>.trans (BitVec.setWidth_eq v)

/-! ### The XOR-fold checksum (R178, R212, R213) -/

/-- The 16-bit word `k` of a string, an odd last byte zero-extended (R178). -/
def foldWord (d : Bytes) (k : Nat) : Nat :=
  (byteAt d (2 * k)).toNat + 256 * if 2 * k + 1 < d.length then (byteAt d (2 * k + 1)).toNat else 0

/-- A fold by xor starts at any value. -/
theorem xor_foldl (g : Nat → Nat) (l : List Nat) (x : Nat) :
    x ^^^ l.foldl (fun x k => x ^^^ g k) 0 = l.foldl (fun x k => x ^^^ g k) x := by
  have hassoc := List.foldl_assoc (op := fun x y : Nat => x ^^^ y) (l := l.map g) (a₁ := x) (a₂ := 0)
  simpa [List.foldl_map] using hassoc.symm

theorem checksum16_eq_foldl (d : Bytes) :
    checksum16 d = (List.range ((d.length + 1) / 2)).foldl (fun x k => x ^^^ foldWord d k) 0 := by
  induction d using checksum16.induct with
  | case1 => rfl
  | case2 a => simp [checksum16, foldWord, byteAt]
  | case3 a b d ih =>
    have hlen : ((a :: b :: d).length + 1) / 2 = (d.length + 1) / 2 + 1 := by simp only [List.length_cons]; omega
    have hfirst : foldWord (a :: b :: d) 0 = a.toNat + 256 * b.toNat := by simp [foldWord, byteAt]
    have hrest (k : Nat) : foldWord (a :: b :: d) (k + 1) = foldWord d k := by
      have hlt : 2 * (k + 1) + 1 < (a :: b :: d).length ↔ 2 * k + 1 < d.length := by simp only [List.length_cons]; omega
      simp only [foldWord, hlt]
      rfl
    rw [hlen, List.range_succ_eq_map, List.foldl_cons, List.foldl_map, hfirst, checksum16, ih]
    simp only [Nat.succ_eq_add_one, hrest]
    rw [Nat.zero_xor, xor_foldl]

/-- One byte replaced changes the checksum unless it is the byte that was there (R213). -/
theorem checksum16_set_eq_iff (d : Bytes) {i : Nat} (hi : i < d.length) (b : Byte) :
    checksum16 (d.set i b) = checksum16 d ↔ b = d[i] := by
  induction d using checksum16.induct generalizing i with
  | case1 => simp at hi
  | case2 a =>
    obtain rfl : i = 0 := by simpa using hi
    simp [checksum16, BitVec.toNat_inj]
  | case3 a c d ih =>
    match i with
    | 0 => simp [checksum16, Nat.xor_left_inj, BitVec.toNat_inj]
    | 1 => simp [checksum16, Nat.xor_left_inj, BitVec.toNat_inj]
    | i + 2 => simpa [checksum16, Nat.xor_right_inj] using ih (i := i) (by simpa using hi)

/-- One byte replaced changes the number a string spells unless it is the byte that was there. -/
theorem leVal_set_eq_iff (d : Bytes) {i : Nat} (hi : i < d.length) (b : Byte) :
    leVal (d.set i b) = leVal d ↔ b = d[i] := by
  induction d generalizing i with
  | nil => simp at hi
  | cons a d ih =>
    cases i with
    | zero => simp [leVal, BitVec.toNat_inj]
    | succ i => simpa [leVal] using ih (i := i) (by simpa using hi)

/-- The byte of a RAM range that is replaced when one byte of RAM is. -/
theorem memRead_eq_set {s t : State} {a x : Nat} (hrest : ∀ y, y ≠ x → ramByte t y = ramByte s y) (hx : a ≤ x)
    (n : Nat) : memRead t a n = (memRead s a n).set (x - a) (ramByte t x) := by
  refine List.ext_getElem (by simp) fun i hi _ => ?_
  rw [List.getElem_set]
  simp only [memRead, List.getElem_map, List.getElem_range]
  split
  · congr 1; omega
  · exact hrest _ (by omega)

/-- A RAM range without the one byte that changes reads as before. -/
theorem memRead_eq_of_outside {s t : State} {a n x : Nat} (hrest : ∀ y, y ≠ x → ramByte t y = ramByte s y)
    (hx : x < a ∨ a + n ≤ x) : memRead t a n = memRead s a n :=
  List.map_congr_left fun i hi => hrest _ (by have := List.mem_range.1 hi; omega)

/-- A function of a string that tells one replaced byte, on a RAM range in which one byte changes. -/
theorem memRead_ne_of_inside {s t : State} {a n x : Nat} {f : Bytes → Nat}
    (hf : ∀ (d : Bytes) {i : Nat} (hi : i < d.length) (b : Byte), f (d.set i b) = f d ↔ b = d[i])
    (hrest : ∀ y, y ≠ x → ramByte t y = ramByte s y) (hne : ramByte t x ≠ ramByte s x) (hlo : a ≤ x)
    (hhi : x < a + n) : f (memRead t a n) ≠ f (memRead s a n) := by
  have hi : x - a < (memRead s a n).length := by rw [memRead_length]; omega
  have hold : (memRead s a n)[x - a] = ramByte s x := by simp [memRead, Nat.add_sub_cancel' hlo]
  rw [memRead_eq_set hrest hlo, Ne, hf _ hi, hold]
  exact hne

theorem exec_checksum (verify append : Bool) (s : State) :
    let d := bits s.regs.aux3 9 0
    let cs := checksum16 (memRead s (srcOff s) d)
    exec (.checksum verify append) s =
      if verify = true ∧ append = true then .next (errState .config s)
      else if 512 < srcOff s + d + (if verify = true ∨ append = true then 2 else 0) then .next (errState .bounds s)
      else if verify = true ∧ leVal (memRead s (srcOff s + d) 2) ≠ cs then .next (errState .checksum s)
      else .next (okState (setRes0 (if append = true then memWrite s (srcOff s + d) (leBytes 2 cs) else s) cs)) := by
  simp only [exec_eq_complete, commandOf, checksumCommand, Bool.and_eq_true, decide_eq_true_iff, Bool.or_eq_true,
    not_inRam_iff, ← Nat.add_assoc, complete_check (e := .config) nofun, complete_check (e := .bounds) nofun,
    complete_check (e := .checksum) nofun, complete_ok]

/-- CHECKSUM with verify, in frame RAM, on a trailer that is not the checksum of the data. -/
theorem exec_checksum_mismatch {s : State} {d : Nat} (hd : bits s.regs.aux3 9 0 = d) (hfit : srcOff s + d + 2 ≤ 512)
    (hne : leVal (memRead s (srcOff s + d) 2) ≠ checksum16 (memRead s (srcOff s) d)) :
    exec (.checksum true false) s = .next (errState .checksum s) := by
  subst hd
  have hexec : exec (.checksum true false) s = _ := exec_checksum true false s
  rw [hexec, if_neg (by simp), if_neg (by simpa using hfit), if_pos ⟨rfl, hne⟩]

end Sys2Proof.Machine
end

section
/-! PROOFS of the family 42_codec. The frames the block builds: BUILD_UPLINK and BUILD_JOINREQ (R171, R174, R186, R195,
R196). -/

namespace Sys2Proof.Machine

/-! ### Flags as bits -/

theorem flag_bitSet (v : Word) (i : Nat) : flag (bitSet v i) = bit v i := by
  have := bit_lt v i
  simp only [flag, bitSet, beq_iff_eq]
  split <;> omega

theorem bitSet_true_iff (v : Word) (i : Nat) : bitSet v i = true ↔ bit v i = 1 := bitSet_eq_iff v i true

theorem bitSet_false_iff (v : Word) (i : Nat) : bitSet v i = false ↔ bit v i = 0 := bitSet_eq_iff v i false

/-! ### BUILD_UPLINK (R186) -/

theorem exec_buildUplink (rev : Rev) (n : Nat) (s : State) :
    let o := uplinkOperands s
    exec (.buildUplink rev n) s =
      if o.p = false ∧ 0 < n then .next (errState .config s)
      else if o.p = true ∧ o.port = 0 ∧ 0 < o.fol then .next (errState .config s)
      else if 512 < srcOff s + o.fol + n ∨ 512 < dstOff s + uplinkTotal o n then .next (errState .bounds s)
      else if o.maxMac < uplinkMacLen o n ∨ 255 < uplinkTotal o n then .next (errState .capacity s)
      else .next (okState (setRes0
        (memWrite s (dstOff s) (uplinkMsg rev n s ++ uplinkMic rev s (uplinkMsg rev n s))) (uplinkTotal o n))) := by
  simp only [exec_eq_complete, commandOf, buildUplinkCommand, Bool.and_eq_true, Bool.not_eq_true', decide_eq_true_iff,
    Bool.or_eq_true, inRam_eq_false_iff, ← Nat.add_assoc, and_assoc, Config.maxFrame,
    complete_check (e := .config) nofun, complete_check (e := .bounds) nofun,
    complete_check (e := .capacity) nofun, complete_ok]

theorem uplinkFOpts_length (rev : Rev) (s : State) (fo : Bytes) : (uplinkFOpts rev s fo).length = fo.length := by
  unfold uplinkFOpts
  split
  · exact ctr_length ..
  · rfl

theorem uplinkPayload_length (o : UplinkOperands) (s : State) (pl : Bytes) (h : o.p = false → pl.length = 0) :
    (uplinkPayload o s pl).length = flag o.p + pl.length := by
  unfold uplinkPayload
  cases hp : o.p with
  | true => simp [flag, Nat.add_comm 1]
  | false => simp [flag, h hp]

theorem uplinkMic_length (rev : Rev) (s : State) (msg : Bytes) : (uplinkMic rev s msg).length = 4 := by
  cases rev with
  | r10 => exact micNet_length ..
  | r11 => exact micUp11_length ..

/-- The frame without its MIC is the MHDR and the MACPayload (R171). -/
theorem uplinkMsg_length (rev : Rev) {n : Nat} {s : State} (h : (uplinkOperands s).p = false → n = 0) :
    (uplinkMsg rev n s).length + 4 = uplinkTotal (uplinkOperands s) n := by
  simp only [uplinkMsg, List.length_append, List.length_cons, List.length_nil, leBytes_length, uplinkFOpts_length,
    memRead_length, uplinkPayload_length _ _ (memRead s _ n) (by simpa using h), uplinkTotal, uplinkMacLen]
  omega

/-- What the checks of BUILD_UPLINK leave: the frame fits, and the command stores it (R186). -/
theorem buildUplink_accepted {rev : Rev} {n : Nat} {s : State}
    (h : firstFailure (checks (.buildUplink rev n) s) = none) :
    ((uplinkOperands s).p = false → n = 0) ∧ dstOff s + uplinkTotal (uplinkOperands s) n ≤ 512 ∧
      uplinkTotal (uplinkOperands s) n ≤ 255 ∧
      exec (.buildUplink rev n) s = .next (okState (setRes0
        (memWrite s (dstOff s) (uplinkMsg rev n s ++ uplinkMic rev s (uplinkMsg rev n s)))
        (uplinkTotal (uplinkOperands s) n))) := by
  obtain ⟨hport, hport0, ⟨hsrc, hdst⟩, hmac, htotal⟩ : ((uplinkOperands s).p = false → n = 0) ∧
      ((uplinkOperands s).p = true → (uplinkOperands s).port = 0 → (uplinkOperands s).fol = 0) ∧
      (srcOff s + ((uplinkOperands s).fol + n) ≤ 512 ∧ dstOff s + uplinkTotal (uplinkOperands s) n ≤ 512) ∧
      uplinkMacLen (uplinkOperands s) n ≤ (uplinkOperands s).maxMac ∧ uplinkTotal (uplinkOperands s) n ≤ 255 := by
    simpa [firstFailure_eq_none_iff, checks, pastRam] using h
  refine ⟨hport, hdst, htotal, ?_⟩
  have hexec : exec (.buildUplink rev n) s = _ := exec_buildUplink rev n s
  rw [hexec, if_neg fun ⟨hp, hn⟩ => hn.ne' (hport hp), if_neg fun ⟨hp, h0, hf⟩ => hf.ne' (hport0 hp h0),
    if_neg (by omega), if_neg (by omega)]

/-! ### MIC on a built uplink (R144, R195) -/

/-- A RAM range read in two parts. -/
theorem memRead_add (s : State) (a n k : Nat) : memRead s a (n + k) = memRead s a n ++ memRead s (a + n) k := by
  simp [memRead, List.range_add, Nat.add_assoc]

/-- MIC with verify, in frame RAM, on a message followed by its MIC. -/
theorem exec_mic_match {ks : Fin 8} {dir : Dir} {rev : Rev} {s : State} {a : Nat} {msg : Bytes} (ha : srcOff s = a)
    (hfit : a + (msg.length + 4) ≤ 512)
    (hread : memRead s a (msg.length + 4) = msg ++ micValue ks dir rev s msg) :
    ∃ u, exec (.mic ks dir rev false true msg.length) s = .next (okState u) := by
  subst ha
  rw [memRead_add] at hread
  obtain ⟨hmsg, hmic⟩ := List.append_inj hread (memRead_length ..)
  rw [exec_mic, if_neg (by simp), if_neg (by simpa [Nat.add_assoc] using hfit), if_neg (by simp [hmsg, hmic])]
  exact ⟨_, rfl⟩

/-- Under the operands R195 names, MIC computes the MIC of the built frame. -/
theorem micValue_eq_uplinkMic {s t : State} (rev : Rev) (msg : Bytes) (hkeys : t.keys = s.keys)
    (haddr : t.regs.devAddr = s.regs.devAddr) (hfcnt : t.regs.fcnt = s.regs.fcnt) (haux0 : t.regs.aux0 = s.regs.aux2)
    (haux1 : t.regs.aux1 = 5) : micValue 4 .up rev t msg = uplinkMic rev s msg := by
  have hkey (k : Fin 8) : key t k = key s k := by rw [key, hkeys]; rfl
  unfold micValue
  rw [haddr, hfcnt, haux0, haux1, hkey, hkey]
  cases rev <;> rfl

/-! ### BUILD_JOINREQ (R174, R196) -/

theorem exec_buildJoinreq (rev : Rev) (s : State) :
    exec (.buildJoinreq rev) s = if 512 < dstOff s + 23 then .next (errState .bounds s)
      else .next (okState (setRes0 (memWrite s (dstOff s) (joinReqMsg s ++ joinReqMic rev s))
        (leVal (joinReqMic rev s)))) := by
  simp only [exec_eq_complete, commandOf, not_inRam_iff, complete_check (e := .bounds) nofun, complete_ok,
    Config.joinReqLen]

theorem joinKey_eq (rev : Rev) (s : State) : joinKey rev s = if rev = .r10 then key s 0 else key s 1 := by
  cases rev <;> rfl

theorem joinReq_length (rev : Rev) (s : State) : (joinReqMsg s ++ joinReqMic rev s).length = 23 := by
  simp [joinReqMsg, joinReqMic]

end Sys2Proof.Machine
end

section
/-! PROOFS of the family 42_codec. The frames the block receives: PARSE_DOWNLINK and PARSE_JOINACC (R171, R175,
R188-R193, R200-R205). -/

namespace Sys2Proof.Machine

@[simp] theorem slice_length (s : Bytes) (i j : Nat) : (slice s i j).length = min j s.length - i := by
  rw [slice, List.length_drop, List.length_take]

/-! ### The counter contexts (R188, R191) -/

theorem contextCounter_eq (k : Context) (s : State) : contextCounter k s =
    if contextNumber k = 2 then s.regs.mcfCnt else if contextNumber k = 1 then s.regs.afCntDn else s.regs.nfCntDn := by
  cases k <;> rfl

theorem contextNumber_dnContext (rev : Rev) (d : Downlink) (s : State) : contextNumber (dnContext rev d s) =
    if dnMulticast s = true then 2 else if rev = .r10 then 0
      else if d.hasPort = true ∧ 0 < d.port then 1 else 0 := by
  have hnumber : contextNumber .nf = 0 ∧ contextNumber .af = 1 ∧ contextNumber .mc = 2 := ⟨rfl, rfl, rfl⟩
  simp only [dnContext, apply_ite contextNumber, Bool.and_eq_true, decide_eq_true_iff, hnumber]

theorem contextCounter_commitCounter (k : Context) (v : Word) (s : State) :
    contextCounter k (commitCounter k v s) = v := by cases k <;> rfl

theorem bit_two_pow_self {i : Nat} (h : i < 32) : (word (2 ^ i)).getLsbD i = true := by
  rw [word, BitVec.getLsbD_ofNat, Nat.testBit_two_pow_self, Bool.and_true, decide_eq_true h]

theorem contextValid_commitCounter (k : Context) (v : Word) (s : State) :
    contextValid k (commitCounter k v s) = true := by
  have hvalid : (commitCounter k v s).regs.dnValid = s.regs.dnValid ||| word (2 ^ contextNumber k) := by
    cases k <;> rfl
  have hlt : contextNumber k < 32 := by cases k <;> decide
  rw [contextValid, bitSet_true_iff, bit_eq_one_iff, hvalid, BitVec.getLsbD_or, bit_two_pow_self hlt, Bool.or_true]

/-! ### PARSE_DOWNLINK (R188-R193) -/

/-- What an accepted downlink leaves before the epilogue (R191-R193). -/
def acceptedDownlink (rev : Rev) (d : Downlink) (s : State) : State :=
  setDownlinkResults rev d s
    (memWrite (commitCounter (dnContext rev d s) (dnCounter rev d s) s) (dstOff s)
      (dnFOpts rev d s ++ dnPayload rev d s))

theorem acceptedDownlink_eq (rev : Rev) (d : Downlink) (s : State) :
    let k := contextNumber (dnContext rev d s)
    acceptedDownlink rev d s = { s with
      ram := s.ram.writeBytes (dstOff s) (dnFOpts rev d s ++ dnPayload rev d s)
      regs := { s.regs with
        nfCntDn := if k = 0 then dnCounter rev d s else s.regs.nfCntDn
        afCntDn := if k = 1 then dnCounter rev d s else s.regs.afCntDn
        mcfCnt := if k = 2 then dnCounter rev d s else s.regs.mcfCnt
        dnValid := s.regs.dnValid ||| word (2 ^ k)
        res0 := dnCounter rev d s
        res1 := word ((byteAt d.f 0).toNat + (byteAt d.f 5).toNat * 2 ^ 8 + d.port * 2 ^ 16 + flag d.hasPort * 2 ^ 24 +
          k * 2 ^ 25)
        res2 := word (d.fol + (dnPayload rev d s).length * 2 ^ 8)
        res3 := dnAddr s } } := by
  unfold acceptedDownlink setDownlinkResults
  cases dnContext rev d s <;> rfl

theorem exec_parseDownlink (rev : Rev) (n : Nat) (s : State) :
    let d := downlinkAt n s
    exec (.parseDownlink rev n) s =
      if dnMulticast s = true ∧ dnWindow s ≠ 3 then .next (errState .config s)
      else if 512 < srcOff s + n ∨ 512 < dstOff s + n then .next (errState .bounds s)
      else if n < 12 ∨ n < 12 + d.fol ∨ (d.hasPort = true ∧ d.port = 0 ∧ 0 < d.fol) ∨
          (dnWindow s = 3 ∧ (0 < d.fol ∨ (d.hasPort = true ∧ d.port = 0))) then .next (errState .malformed s)
      else if d.addr ≠ (dnAddr s).toNat then .next (errState .addr s)
      else if d.mic ≠ dnMic rev d s then .next (errState .mic s)
      else if (contextValid (dnContext rev d s) s = true ∧
            (dnCounter rev d s).toNat ≤ (contextCounter (dnContext rev d s) s).toNat) ∨
          (dnMulticast s = true ∧ s.regs.mcfCntMax.toNat < (dnCounter rev d s).toNat) then .next (errState .replay s)
      else .next (okState (acceptedDownlink rev d s)) := by
  simp only [exec_eq_complete, commandOf, parseDownlinkCommand, dnMisplacedMac, dnReplay, Bool.and_eq_true,
    Bool.or_eq_true, not_inRam_iff, decide_eq_true_iff, and_assoc, complete_check (e := .config) nofun,
    complete_check (e := .bounds) nofun, complete_check (e := .malformed) nofun, complete_check (e := .addr) nofun,
    complete_check (e := .mic) nofun, complete_check (e := .replay) nofun, complete_ok, ← ite_or, acceptedDownlink]

theorem hasPort_iff (d : Downlink) : d.hasPort = true ↔ 12 + d.fol < d.n := by
  rw [Downlink.hasPort, decide_eq_true_iff]
  omega

theorem dnMicKey_eq (rev : Rev) (s : State) : dnMicKey rev s =
    if dnMulticast s = true then key s (slotField s.regs.aux1 0) else if rev = .r10 then key s 4 else key s 5 := by
  cases rev <;> rfl

theorem dnFOpts_length_le (rev : Rev) (d : Downlink) (s : State) : (dnFOpts rev d s).length ≤ d.fol := by
  have hfopts : d.fopts.length ≤ d.fol := by rw [Downlink.fopts, slice_length]; omega
  unfold dnFOpts
  split
  · rwa [ctr_length]
  · exact hfopts

/-- The plaintext is no longer than the frame (R192). -/
theorem plaintext_length_le (rev : Rev) {d : Downlink} (s : State) (h : d.fol ≤ d.n) :
    (dnFOpts rev d s ++ dnPayload rev d s).length ≤ d.n := by
  have hfopts := dnFOpts_length_le rev d s
  have hpayload : d.payload.length ≤ d.n - d.fol := by rw [Downlink.payload, slice_length]; omega
  rw [List.length_append, dnPayload]
  split
  · rw [ctr_length]; omega
  · rw [List.length_nil]; omega

/-! ### A frame parsed again (R190, R191) -/

/-- The checks of PARSE_DOWNLINK before the replay check pass (R192). -/
structure DownlinkAuthentic (rev : Rev) (n : Nat) (s : State) : Prop where
  window : ¬ (dnMulticast s && dnWindow s ≠ 3) = true
  ranges : ¬ (!inRam (srcOff s) n || !inRam (dstOff s) n) = true
  header : ¬ n < 12
  fopts : ¬ n < 12 + (downlinkAt n s).fol
  mac : ¬ dnMisplacedMac (downlinkAt n s) s = true
  addr : ¬ (downlinkAt n s).addr ≠ (dnAddr s).toNat
  mic : ¬ (downlinkAt n s).mic ≠ dnMic rev (downlinkAt n s) s

theorem parseDownlinkCommand_eq_ok {rev : Rev} {n : Nat} {s u : State} (h : parseDownlinkCommand rev n s = .ok u) :
    DownlinkAuthentic rev n s ∧ u = acceptedDownlink rev (downlinkAt n s) s := by
  obtain ⟨hwindow, h⟩ := check_passed h
  obtain ⟨hranges, h⟩ := check_passed h
  obtain ⟨hheader, h⟩ := check_passed h
  obtain ⟨hfopts, h⟩ := check_passed h
  obtain ⟨hmac, h⟩ := check_passed h
  obtain ⟨haddr, h⟩ := check_passed h
  obtain ⟨hmic, h⟩ := check_passed h
  obtain ⟨-, h⟩ := check_passed h
  exact ⟨⟨hwindow, hranges, hheader, hfopts, hmac, haddr, hmic⟩, (Except.ok.inj h).symm⟩

theorem DownlinkAuthentic.replay {rev : Rev} {n : Nat} {s : State} (h : DownlinkAuthentic rev n s)
    (hreplay : dnReplay rev (downlinkAt n s) s = true) : parseDownlinkCommand rev n s = .error .replay := by
  rw [parseDownlinkCommand, if_neg h.window, if_neg h.ranges, if_neg h.header, if_neg h.fopts, if_neg h.mac,
    if_neg h.addr, if_neg h.mic, if_pos hreplay]

/-- An accepted frame leaves every operand that PARSE_DOWNLINK reads but the counters and RAM. -/
theorem acceptedDownlink_operands (rev : Rev) (d : Downlink) (s : State) :
    let t := okState (acceptedDownlink rev d s)
    srcOff t = srcOff s ∧ dstOff t = dstOff s ∧ dnMulticast t = dnMulticast s ∧ dnWindow t = dnWindow s ∧
      dnAddr t = dnAddr s ∧ dnMicKey rev t = dnMicKey rev s ∧ dnContext rev d t = dnContext rev d s ∧
      dnConf rev d t = dnConf rev d s := by
  rw [acceptedDownlink_eq]
  exact ⟨rfl, rfl, rfl, rfl, rfl, rfl, rfl, rfl⟩

/-- The context of an accepted frame is valid with the frame's counter (R191). -/
theorem acceptedDownlink_counter (rev : Rev) (d : Downlink) (s : State) :
    contextCounter (dnContext rev d s) (okState (acceptedDownlink rev d s)) = dnCounter rev d s ∧
      contextValid (dnContext rev d s) (okState (acceptedDownlink rev d s)) = true :=
  ⟨contextCounter_commitCounter _ _ s, contextValid_commitCounter _ _ s⟩

/-- Inferring from a counter that was itself inferred from the wire value gives it back. -/
theorem dnCounter_acceptedDownlink (rev : Rev) (d : Downlink) (s : State) :
    dnCounter rev d (okState (acceptedDownlink rev d s)) = dnCounter rev d s := by
  obtain ⟨-, -, -, -, -, -, hctx, -⟩ := acceptedDownlink_operands rev d s
  have hfcnt : d.fcnt < 2 ^ 16 := leVal_slice_lt d.f 6 8
  rw [dnCounter, hctx, (acceptedDownlink_counter rev d s).1]
  exact infer_self (infer_mod hfcnt _)

/-- A frame that the plaintext does not overlap reads as before. -/
theorem downlinkAt_acceptedDownlink {rev : Rev} {n : Nat} {s : State} (h : DownlinkAuthentic rev n s)
    (hapart : srcOff s + n ≤ dstOff s ∨ dstOff s + n ≤ srcOff s) :
    downlinkAt n (okState (acceptedDownlink rev (downlinkAt n s) s)) = downlinkAt n s := by
  have hranges := h.ranges
  have hfopts := h.fopts
  rw [Bool.or_eq_true, not_inRam_iff, not_inRam_iff] at hranges
  have hlen : (dnFOpts rev (downlinkAt n s) s ++ dnPayload rev (downlinkAt n s) s).length ≤ n :=
    plaintext_length_le rev s (show (downlinkAt n s).fol ≤ n by omega)
  have hread := memRead_memWrite_disjoint s (dstOff s)
    (dnFOpts rev (downlinkAt n s) s ++ dnPayload rev (downlinkAt n s) s) (srcOff s) n
    (by rw [Config.ramSize]; omega) (by omega)
  rw [downlinkAt, (acceptedDownlink_operands rev _ s).1]
  exact congrArg (Downlink.mk n) hread

theorem DownlinkAuthentic.parsedAgain {rev : Rev} {n : Nat} {s : State} (h : DownlinkAuthentic rev n s)
    (hapart : srcOff s + n ≤ dstOff s ∨ dstOff s + n ≤ srcOff s) :
    parseDownlinkCommand rev n (okState (acceptedDownlink rev (downlinkAt n s) s)) = .error .replay := by
  obtain ⟨hsrc, hdst, hmulticast, hwindow, haddr, hkey, hctx, hconf⟩ := acceptedDownlink_operands rev (downlinkAt n s) s
  obtain ⟨hcounter, hvalid⟩ := acceptedDownlink_counter rev (downlinkAt n s) s
  have hframe := downlinkAt_acceptedDownlink h hapart
  have hagain := dnCounter_acceptedDownlink rev (downlinkAt n s) s
  generalize okState (acceptedDownlink rev (downlinkAt n s) s) = t at *
  have hauthentic : DownlinkAuthentic rev n t := by
    constructor
    · rw [hmulticast, hwindow]; exact h.window
    · rw [hsrc, hdst]; exact h.ranges
    · exact h.header
    · rw [hframe]; exact h.fopts
    · rw [hframe, dnMisplacedMac, hwindow]; exact h.mac
    · rw [hframe, haddr]; exact h.addr
    · rw [hframe, dnMic, hkey, haddr, hagain, hconf]; exact h.mic
  refine hauthentic.replay ?_
  rw [hframe, dnReplay, hctx, hagain, hcounter, hvalid]
  simp

/-! ### PARSE_JOINACC (R200-R205) -/

theorem joinNonceFresh_eq_false_iff (rev : Rev) (s : State) (jn : Nat) : joinNonceFresh rev s jn = false ↔
    bit s.regs.lastJn 31 = 1 ∧
      if rev = .r11 then jn ≤ bits s.regs.lastJn 23 0 else jn = bits s.regs.lastJn 23 0 := by
  have hfresh (fresh : Bool) : (!lastJnValid s || fresh) = false ↔ bit s.regs.lastJn 31 = 1 ∧ fresh = false := by
    rw [Bool.or_eq_false_iff, Bool.not_eq_false', lastJnValid, bitSet_true_iff]
  cases rev with
  | r10 => exact (hfresh _).trans (and_congr_right' (decide_eq_false_iff_not.trans not_not))
  | r11 => exact (hfresh _).trans (and_congr_right' (decide_eq_false_iff_not.trans Nat.not_lt))

theorem exec_parseJoinacc (rev : Rev) (n : Nat) (s : State) :
    let p := openJoin (joinKey rev s) (memRead s (srcOff s) n) n
    exec (.parseJoinacc rev n) s =
      if s.sched.fsm ≠ .idle then .next (errState .busy s)
      else if 512 < srcOff s + n ∨ 512 < dstOff s + n then .next (errState .bounds s)
      else if n ≠ 17 ∧ n ≠ 33 then .next (errState .malformed s)
      else if rev = .r11 ∧ (byteAt p 11).getLsbD 7 = false then .next (errState .version s)
      else if slice p (n - 4) n ≠ joinAccMic rev s p n then .next (errState .mic s)
      else if bit s.regs.lastJn 31 = 1 ∧ (if rev = .r11 then leVal (slice p 1 4) ≤ bits s.regs.lastJn 23 0
          else leVal (slice p 1 4) = bits s.regs.lastJn 23 0) then .next (errState .replay s)
      else .next (okState (commitJoin p n s)) := by
  simp only [exec_eq_complete, commandOf, parseJoinaccCommand, sbusy_iff, Bool.or_eq_true,
    Bool.not_eq_true', inRam_eq_false_iff, joinNonceFresh_eq_false_iff, Config.joinAccLen, Config.joinAccCfLen,
    complete_check (e := .busy) nofun, complete_check (e := .bounds) nofun, complete_check (e := .malformed) nofun,
    complete_check (e := .version) nofun, complete_check (e := .mic) nofun, complete_check (e := .replay) nofun,
    complete_ok]

/-- An accepted join has passed the JoinNonce check (R204). -/
theorem parseJoinaccCommand_eq_ok {rev : Rev} {n : Nat} {s u : State} (h : parseJoinaccCommand rev n s = .ok u) :
    ∃ p, joinNonceFresh rev s (leVal (slice p 1 4)) = true ∧ u = commitJoin p n s := by
  obtain ⟨-, h⟩ := check_passed h
  obtain ⟨-, h⟩ := check_passed h
  obtain ⟨-, h⟩ := check_passed h
  obtain ⟨-, h⟩ := check_passed h
  obtain ⟨-, h⟩ := check_passed h
  obtain ⟨hfresh, h⟩ := check_passed h
  rw [Bool.not_eq_true', Bool.not_eq_false] at hfresh
  exact ⟨_, hfresh, (Except.ok.inj h).symm⟩

/-- A join accept in clear is as long as on the wire (R175, R201). -/
theorem openJoin_length (k : Block) (f : Bytes) {n : Nat} (h : n = 17 ∨ n = 33) : (openJoin k f n).length = n := by
  rcases h with rfl | rfl <;> simp [openJoin, Config.joinAccCfLen]

theorem joinAccMic_eq (rev : Rev) (s : State) (p : Bytes) (n : Nat) : joinAccMic rev s p n =
    if rev = .r10 then (cmac (key s 0) (slice p 0 (n - 4))).toList.take 4
    else (cmac (key s 6) ([0xFF] ++ leBytes 8 (joinEui s) ++ leBytes 2 (bits s.regs.aux2 15 0) ++
      slice p 0 (n - 4))).toList.take 4 := by
  cases rev <;> rfl

/-- DNVALID after a join keeps bit 2 alone (R205, log 15). -/
theorem dnValid_fields (v : Word) :
    let d := word (bit v 2 * 2 ^ 2)
    bit d 0 = 0 ∧ bit d 1 = 0 ∧ bit d 2 = bit v 2 ∧ bits d 31 3 = 0 := by
  have hbit := bit_lt v 2
  have hw : bit v 2 * 2 ^ 2 < 2 ^ 32 := by omega
  refine ⟨?_, ?_, ?_, ?_⟩ <;> simp only [bit_word hw, bits_word hw] <;> omega

/-- LASTJN after a join: valid, with the accepted JoinNonce (R35, R205). -/
theorem lastJn_commitJoin (p : Bytes) (n : Nat) (s : State) :
    lastJnValid (commitJoin p n s) = true ∧ lastJnJn (commitJoin p n s) = leVal (slice p 1 4) := by
  have hjn : leVal (slice p 1 4) < 2 ^ 24 := leVal_slice_lt p 1 4
  have hw : 2 ^ 31 + leVal (slice p 1 4) < 2 ^ 32 := by omega
  have hlast : (commitJoin p n s).regs.lastJn = word (2 ^ 31 + leVal (slice p 1 4)) := rfl
  rw [lastJnValid, bitSet_true_iff, lastJnJn, hlast, bit_word hw, bits_word hw]
  omega

end Sys2Proof.Machine
end

section
/-! PROOFS of the family 42_codec. The settled statements. -/

namespace Sys2Proof.Machine.Codec

/-- Settles O22: both encoders give the bytes by index, and `memWrite` stores them. -/
theorem storeCommands : Obligations.StoreCommands := by
  unfold Obligations.StoreCommands
  intro len s
  have hle : commandOf (.storeLe len) s = storeCommand leBytes len s := rfl
  have hbe : commandOf (.storeBe len) s = storeCommand beBytes len s := rfl
  rw [exec_of_storeCommand hle, exec_of_storeCommand hbe, ← leBytes_eq_ofFn, ← beBytes_eq_ofFn]
  split_ifs with hlen hfit
  · exact ⟨rfl, rfl⟩
  · exact ⟨rfl, rfl⟩
  · exact ⟨⟨_, rfl, stored_of_length_le (leBytes_length ..).le (by omega) _⟩, _, rfl,
      stored_of_length_le (beBytes_length ..).le (by omega) _⟩

/-- Settles O23: the place values of the bytes sum to the number read, which has at most 64 bits. -/
theorem loadCommands : Obligations.LoadCommands := by
  unfold Obligations.LoadCommands
  intro len s
  have hle : commandOf (.loadLe len) s = loadCommand leVal len s := rfl
  have hbe : commandOf (.loadBe len) s = loadCommand beVal len s := rfl
  rw [exec_of_loadCommand hle, exec_of_loadCommand hbe, ← leVal_memRead, ← beVal_memRead]
  split_ifs with hlen hfit
  · exact ⟨rfl, rfl⟩
  · exact ⟨rfl, rfl⟩
  · exact ⟨⟨_, _, rfl, halves_eq (leVal_memRead_lt ..) (by omega)⟩, _, _, rfl,
      halves_eq (beVal_memRead_lt ..) (by omega)⟩

/-- Settles O24: in either byte order the decoder undoes the encoder modulo `256 ^ LEN`. -/
theorem loadAfterStore : Obligations.LoadAfterStore := by
  unfold Obligations.LoadAfterStore
  exact fun len s t _ _ hsd => ⟨load_after_store leBytes_length leVal_leBytes rfl (fun _ => rfl) hsd,
    load_after_store beBytes_length beVal_beBytes rfl (fun _ => rfl) hsd⟩

/-- Settles O25: the fields of both results are disjoint, and packing reads what unpacking wrote. -/
theorem fctrlCommands : Obligations.FctrlCommands := by
  unfold Obligations.FctrlCommands
  intro s a
  obtain ⟨h7, h6, h5, h4, hmid, hlo, hhi⟩ := fctrlUnpackValue_fields a
  obtain ⟨hcheck, hback⟩ := fctrlPackValue_fctrlUnpackValue a
  refine ⟨?_, word (fctrlUnpackValue a), rfl, h7, h6, h5, h4, hmid, hlo, hhi,
    setRes0 { s with regs := { s.regs with aux0 := word (fctrlUnpackValue a) } } (bits a 7 0), ?_, ?_⟩
  · rw [exec_fctrlPack]
    split_ifs with h
    · rfl
    · exact ⟨_, rfl, (fctrlPackValue_fields (Nat.not_lt.1 h)).2⟩
  · rw [exec_fctrlPack, if_neg (Nat.not_lt.2 hcheck), hback]
  · have hlt : bits a 7 0 < 2 ^ 8 := bits_lt a 7 0
    exact Nat.mod_eq_of_lt (by omega)

/-- Settles O26: FPort's bit is the flag P, the frame of the statement is `uplinkMsg` with `uplinkMic`, and its
length is the sum of its fields. -/
theorem buildUplinkCommand : Obligations.BuildUplinkCommand := by
  unfold Obligations.BuildUplinkCommand
  intro rev n s i a0 a2 fol p port macLen total da fc
  have hi : exec i s = _ := exec_buildUplink rev n s
  have hset : (uplinkOperands s).p = true ↔ p = 1 := bitSet_true_iff a0 20
  have hclear : (uplinkOperands s).p = false ↔ p = 0 := bitSet_false_iff a0 20
  have hmac : uplinkMacLen (uplinkOperands s) n = macLen := by
    rw [uplinkMacLen, show flag (uplinkOperands s).p = p from flag_bitSet a0 20]; rfl
  have htotal : uplinkTotal (uplinkOperands s) n = total := by rw [uplinkTotal, hmac]
  simp only [hset, hclear, hmac, htotal] at hi
  refine check_agrees hi fun hnoPort hi => check_agrees hi fun _ hi => check_agrees hi fun hfit hi =>
    check_agrees hi fun _ hi => ?_
  intro fo pl fo' msg m
  have hfopts : uplinkFOpts rev s fo = fo' := by simp only [uplinkFOpts, fo, memRead_length]; rfl
  have hpayload : uplinkPayload (uplinkOperands s) s pl = if p = 1 then
      [BitVec.ofNat 8 port] ++ ctr (if port = 0 then key s 3 else key s 2) 0 .up da fc false pl else [] := by
    simp only [uplinkPayload, hset, apply_ite (key s)]; rfl
  have hmsg : uplinkMsg rev n s = msg := by simp only [msg, ← hfopts, ← hpayload]; rfl
  have hm : uplinkMic rev s msg = m := by cases rev <;> rfl
  have hlen : (msg ++ m).length = total := by
    rw [List.length_append, ← hm, uplinkMic_length, ← hmsg, uplinkMsg_length, htotal]
    intro hp
    have := hclear.1 hp
    omega
  rw [hmsg, hm] at hi
  exact ⟨hlen, _, hi, stored_of_length_le hlen.le (by omega) _⟩

/-- Settles O27: what RAM holds from DST is the message and the MIC that R195's operands give it. -/
theorem builtUplinkVerifies : Obligations.BuiltUplinkVerifies := by
  unfold Obligations.BuiltUplinkVerifies
  intro rev n s t hnone hexec
  obtain ⟨hport, hdst, htotal, haccepted⟩ := buildUplink_accepted hnone
  have hlen := uplinkMsg_length rev hport
  have hframe : (uplinkMsg rev n s ++ uplinkMic rev s (uplinkMsg rev n s)).length = (uplinkMsg rev n s).length + 4 := by
    rw [List.length_append, uplinkMic_length]
  have hread := memRead_memWrite_of_length hframe (hlen ▸ hdst) s
  have ht := Host.Outcome.next.inj (hexec.symm.trans haccepted)
  obtain ⟨hres, hsrc, hkeys, haddr, hfcnt, haux2, hram⟩ :
      t.regs.res0 = word (uplinkTotal (uplinkOperands s) n) ∧ bits t.regs.dst 8 0 = dstOff s ∧ t.keys = s.keys ∧
        t.regs.devAddr = s.regs.devAddr ∧ t.regs.fcnt = s.regs.fcnt ∧ t.regs.aux2 = s.regs.aux2 ∧
        memRead t (dstOff s) ((uplinkMsg rev n s).length + 4) =
          uplinkMsg rev n s ++ uplinkMic rev s (uplinkMsg rev n s) := by
    rw [ht]
    exact ⟨rfl, rfl, rfl, rfl, rfl, rfl, hread⟩
  have hmsgLen : t.regs.res0.toNat - 4 = (uplinkMsg rev n s).length := by
    rw [hres, word, BitVec.toNat_ofNat]
    omega
  rw [hmsgLen]
  refine exec_mic_match (a := dstOff s) hsrc (by omega) (hram.trans (congrArg (_ ++ ·) (Eq.symm ?_)))
  exact micValue_eq_uplinkMic rev _ hkeys haddr hfcnt haux2 rfl

/-- Settles O28: the context, counter, keys and plaintext that the statement names are the model's, the context by its
number; then each check agrees, and `acceptedDownlink_eq` is the effect. -/
theorem parseDownlinkCommand : Obligations.ParseDownlinkCommand := by
  unfold Obligations.ParseDownlinkCommand
  intro rev n s i g win mc f fctrl fol hasPort port addr ctx l c micKey conf
  have hi : exec i s = _ := exec_parseDownlink rev n s
  have hmc : dnMulticast s = true ↔ mc = 1 := bitSet_true_iff g.aux0 2
  have hhas : (downlinkAt n s).hasPort = true ↔ hasPort := hasPort_iff _
  have hport : (downlinkAt n s).port = port := by simp only [Downlink.port, hhas]; rfl
  have haddr : dnAddr s = addr := by simp only [dnAddr, hmc]; rfl
  have hctx : contextNumber (dnContext rev (downlinkAt n s) s) = ctx := by
    simp only [contextNumber_dnContext, hmc, hhas, hport, ctx]
  have hl : contextCounter (dnContext rev (downlinkAt n s) s) s = l := by rw [contextCounter_eq, hctx]
  have hc : dnCounter rev (downlinkAt n s) s = c := by rw [dnCounter, hl]; rfl
  have hvalid : contextValid (dnContext rev (downlinkAt n s) s) s = true ↔ bit g.dnValid ctx = 1 := by
    rw [contextValid, hctx, bitSet_true_iff]
  have hmic : dnMic rev (downlinkAt n s) s = micNet micKey .down addr c conf (slice f 0 (n - 4)) := by
    simp only [dnMic, dnMicKey_eq, hmc, haddr, hc]; rfl
  have hfopts : dnFOpts rev (downlinkAt n s) s = if rev = .r11 ∧ 0 < fol then
      ctr (key s 3) (BitVec.ofNat 8 (bits g.aux0 15 8)) .down addr c true (slice f 8 (8 + fol))
      else slice f 8 (8 + fol) := by
    simp only [dnFOpts, haddr, hc]; rfl
  have hpayload : dnPayload rev (downlinkAt n s) s = if hasPort then
      ctr (if mc = 1 then key s (slotField g.aux1 4) else if port = 0 then key s 3 else key s 2) 0 .down addr c false
        (slice f (9 + fol) (n - 4)) else [] := by
    simp only [dnPayload, dnPayloadKey, hhas, hmc, hport, haddr, hc]; rfl
  simp only [hmc, hhas, hport, haddr, hvalid, hc, hl, hmic] at hi
  refine check_agrees hi fun _ hi => check_agrees hi fun hfit hi => check_agrees hi fun hform hi =>
    check_agrees hi fun _ hi => check_agrees hi fun _ hi => check_agrees hi fun _ hi => ?_
  intro fo fo' kp pl
  have hlen := plaintext_length_le rev (d := downlinkAt n s) s (show fol ≤ n by omega)
  have hstored := stored_of_length_le hlen (show dstOff s + n ≤ 512 by omega) s.ram
  rw [hfopts, hpayload] at hstored
  refine ⟨_, ?_, hstored⟩
  rw [hi, acceptedDownlink_eq]
  simp only [hctx, hport, haddr, hc, hfopts, hpayload, flag, hhas]
  rfl

/-- Settles O29: the second parse meets the same frame, keys and operands, infers the committed counter again, and finds
its context valid with that counter. -/
theorem acceptedDownlinkIsNotAcceptedTwice : Obligations.AcceptedDownlinkIsNotAcceptedTwice := by
  unfold Obligations.AcceptedDownlinkIsNotAcceptedTwice
  intro rev n s t hapart hexec herr
  obtain ⟨u, hu, rfl⟩ := exec_accepted hexec herr
  obtain ⟨hauthentic, rfl⟩ := parseDownlinkCommand_eq_ok hu
  exact exec_error (by decide) (hauthentic.parsedAgain hapart)

/-- Settles O30: the request has 19 bytes and a MIC of 4, under the root key of the revision. -/
theorem buildJoinreqCommand : Obligations.BuildJoinreqCommand := by
  unfold Obligations.BuildJoinreqCommand
  intro rev s
  refine check_agrees (exec_buildJoinreq rev s) fun hfit hi => ?_
  intro msg m
  have hm : joinReqMic rev s = m := by rw [joinReqMic, joinKey_eq]; rfl
  have hlen : (msg ++ m).length = 23 := hm ▸ joinReq_length rev s
  rw [hm] at hi
  exact ⟨hlen, _, hi, stored_of_length_le hlen.le (by omega) _⟩

/-- Settles O31: the plaintext of the statement is `openJoin` under `joinKey`, its MIC is `joinAccMic`, and DNVALID is
read off bit by bit. -/
theorem parseJoinaccCommand : Obligations.ParseJoinaccCommand := by
  unfold Obligations.ParseJoinaccCommand
  intro rev n s i g f k p jn da body m
  have hi : exec i s = _ := exec_parseJoinacc rev n s
  have hp : openJoin (joinKey rev s) (memRead s (srcOff s) n) n = p := by rw [joinKey_eq]; rfl
  have hm : joinAccMic rev s p n = m := joinAccMic_eq rev s p n
  simp only [hp, hm] at hi
  refine check_agrees hi fun _ hi => check_agrees hi fun hfit hi => check_agrees hi fun hlen hi =>
    check_agrees hi fun _ hi => check_agrees hi fun _ hi => check_agrees hi fun _ hi => ?_
  have hplen : p.length = n := by rw [← hp]; exact openJoin_length _ _ (by omega)
  exact ⟨_, _, hi, dnValid_fields g.dnValid, stored_of_length_le hplen.le (by omega) _⟩

/-- Settles O32: in 1.1 the check leaves only a JoinNonce above the last one, and the join commits it. -/
theorem acceptedJoinNonceIncreases : Obligations.AcceptedJoinNonceIncreases := by
  unfold Obligations.AcceptedJoinNonceIncreases
  intro n s t hexec herr
  obtain ⟨u, hu, rfl⟩ := exec_accepted hexec herr
  obtain ⟨p, hfresh, rfl⟩ := parseJoinaccCommand_eq_ok hu
  obtain ⟨hvalid, hjn⟩ := lastJn_commitJoin p n s
  refine ⟨hvalid, fun hlast => ?_⟩
  have hlt : lastJnJn s < leVal (slice p 1 4) := by simpa [joinNonceFresh, hlast] using hfresh
  exact hjn ▸ hlt

/-- Settles O33: the counter is `infer` of FCNT and the wire value. -/
theorem fcntInferCommand : Obligations.FcntInferCommand := by
  unfold Obligations.FcntInferCommand
  intro s
  refine ⟨infer s.regs.fcnt (bits s.regs.aux0 15 0), ?_, infer_toNat ..⟩
  rw [exec_fcntInfer, setRes0, word_toNat]

/-- Settles O34: the counter and its inference as their two halves. -/
theorem inferNeverDecreases : Obligations.InferNeverDecreases := by
  unfold Obligations.InferNeverDecreases
  intro l f hf
  have hl := toNat_eq_halves l
  have hlo : bits l 15 0 < 2 ^ 16 := bits_lt l 15 0
  refine ⟨infer_mod hf l, fun hhi => ?_, fun hhi hwrap => ?_⟩
  · rw [infer_toNat]
    split_ifs <;> omega
  · rw [infer_toNat, if_pos hwrap]
    omega

/-- Settles O35: the fold of the statement is `checksum16`, and each check and effect stands in the command. -/
theorem checksumCommand : Obligations.ChecksumCommand := by
  unfold Obligations.ChecksumCommand
  intro verify append s i d data cs
  have hlen : data.length = d := memRead_length ..
  have hcs : cs = checksum16 data := by rw [checksum16_eq_foldl, hlen]; simp only [foldWord, hlen, cs]
  have hi : exec i s = _ := exec_checksum verify append s
  have htrailer : append = true → (if verify = true ∨ append = true then 2 else 0) = 2 := fun h => if_pos (.inr h)
  rw [hi, hcs]
  generalize (if verify = true ∨ append = true then 2 else 0) = trailer at htrailer ⊢
  split_ifs with hboth hfit hverify happend
  · rfl
  · rfl
  · rfl
  · rw [htrailer happend] at hfit
    exact ⟨_, rfl, stored_of_length_le (leBytes_length ..).le (by omega) _⟩
  · exact ⟨_, rfl, rfl⟩

/-- Settles O36: a changed byte of the data changes the fold, one of the trailer the number it spells. -/
theorem checksumDetectsOneByte : Obligations.ChecksumDetectsOneByte := by
  unfold Obligations.ChecksumDetectsOneByte
  intro s m x hnone hlo hhi hx hrest
  obtain ⟨hfit, htrailer⟩ : srcOff s + (bits s.regs.aux3 9 0 + 2) ≤ 512 ∧
      leVal (memRead s (srcOff s + bits s.regs.aux3 9 0) 2) =
        checksum16 (memRead s (srcOff s) (bits s.regs.aux3 9 0)) := by
    simpa [firstFailure_eq_none_iff, checks, pastRam] using hnone
  refine exec_checksum_mismatch (s := { s with ram := m }) rfl hfit ?_
  show leVal (memRead _ (srcOff s + bits s.regs.aux3 9 0) 2) ≠ checksum16 (memRead _ (srcOff s) (bits s.regs.aux3 9 0))
  rcases lt_or_ge x (srcOff s + bits s.regs.aux3 9 0) with hdata | htail
  · rw [memRead_eq_of_outside hrest (.inl hdata), htrailer]
    exact (memRead_ne_of_inside checksum16_set_eq_iff hrest hx hlo hdata).symm
  · rw [memRead_eq_of_outside (a := srcOff s) hrest (.inr htail), ← htrailer]
    exact memRead_ne_of_inside leVal_set_eq_iff hrest hx htail hhi

end Sys2Proof.Machine.Codec
end

section
/-! PROOFS of the family 43_gate. The duty-cycle timer with DC_CHECK, and the CSMA arbiter's steps (R230-R244, R259). -/

namespace Sys2Proof.Machine

/-! ### The duty-cycle timer (R231-R235) -/

/-- Where the budget divides the product, the interval is the exact quotient (R231). -/
theorem interval_of_mul_eq {d t q : Nat} (hd : 0 < d) (h : Config.msPerHour * t = q * d) : interval d t = q := by
  have hle : interval d t ≤ q := ceilDiv_least _ d q hd h.le
  have hge : q * d ≤ interval d t * d := h.ge.trans (ceilDiv_mul_ge _ d hd)
  exact hle.antisymm (Nat.le_of_mul_le_mul_right hge hd)

/-- DC_CHECK: the gate off, the check of the budget, then the interval, what is left of it and whether it blocks. -/
theorem exec_dcCheck (retx : Bool) (s : State) :
    exec (.dcCheck retx) s = if bit s.regs.schedCtrl 2 = 0 then .next (okState (setGate s 0 0 0))
      else if s.regs.dcMsph = 0 then .next (errState .config s)
      else .next (okState (setGate s (dutyInterval s - dutyElapsed s) (dutyInterval s)
        (flag (dutyBlocked s && !retx)))) := by
  simp only [exec_eq_complete, commandOf, dcEn, Bool.not_eq_true', bitSet_false_iff]
  split
  · rfl
  · rw [complete_check (e := .config) nofun, complete_ok]

/-- The time left is 0 once the interval has elapsed (R235). -/
theorem dutyWait_eq (s : State) :
    dutyInterval s - dutyElapsed s = if dutyElapsed s < dutyInterval s then dutyInterval s - dutyElapsed s else 0 := by
  split <;> omega

/-- The timer blocks a SEND that is not a retransmission until the interval has elapsed (R234, R235). -/
theorem dutyFlag_eq (retx : Bool) (s : State) :
    word (flag (dutyBlocked s && !retx)) = if dutyElapsed s < dutyInterval s ∧ retx = false then 1 else 0 := by
  simp only [flag, dutyBlocked, Bool.and_eq_true, decide_eq_true_eq, Bool.not_eq_true']
  exact apply_ite word _ 1 0

/-! ### A radio event that answers an attempt (R252, R259) -/

/-- The state in which an event that answers the pending request is handled: the radio is free again (R251). -/
def answered (s : State) (rest : List Input) : State := { taken s rest with radioPending := .none }

section
variable {s : State} {sn : Snapshot} {e : Event} {rest : List Input}

/-- With no urgent step due, an event that answers the request of an attempt is handled in the next step. -/
theorem step_of_answer (hdue : dueUrgent s = none) (hin : s.inputs = .radio e :: rest)
    (hm : eventMatches s.radioPending e = true) (hp : requestInPhase s.radioPending s.sched.fsm = true)
    (hf : s.sched.fsm ≠ .idle) (hs : s.sched.snap = some sn) :
    step s = onAttemptEvent s.radioPending sn e (answered s rest) := by
  rw [step_eq, hdue]
  dsimp only
  rw [takeInput_radio hin]
  exact radioEvent_attempt (s := taken s rest) hm hp hf hs

/-- In TransmitGuard only a running delay makes an urgent step due (R252). -/
theorem dueUrgent_of_guard (hf : s.sched.fsm = .transmitGuard) (hs : s.sched.snap = some sn)
    (hg : ∀ t0 d, s.sched.guardPhase ≠ .delay t0 d) : dueUrgent s = none := by
  refine (dueUrgent_eq_none_iff s).2 fun u => Bool.eq_false_iff.2 fun h => ?_
  cases u with
  | u1 =>
    obtain ⟨-, t0, d, hdelay⟩ := urgentGuard_u1 h
    exact hg t0 d hdelay
  | u2 => simpa [hf] using fsm_of_dueRx1 h
  | u3 => simpa [hf] using fsm_of_dueRx2 h
  | u4 => simpa [hf] using fsm_of_deadline h
  | u5 => simpa [hf] using (urgentGuard_u5 hs h).2.1
  | u6 => simpa [hf] using (urgentGuard_u6 h).1

/-- The back-off draw fixes the number of probes (R259). -/
theorem step_of_backoffDraw {r : Byte} (hf : s.sched.fsm = .transmitGuard) (hs : s.sched.snap = some sn)
    (hg : s.sched.guardPhase = .randBackoff) (hp : s.radioPending = .random)
    (hin : s.inputs = .radio (.random r) :: rest) :
    step s = .next (probes sn (sn.difs + r.toNat % (sn.backoffMax + 1)) (answered s rest)) := by
  have hdue := dueUrgent_of_guard hf hs (by simp [hg])
  rw [step_of_answer hdue hin (by rw [hp]; rfl) (by rw [hp, hf]; rfl) (by simp [hf]) hs]
  simp only [onAttemptEvent, onRandom, answered, taken, hg]

/-- A probe's answer: clear leaves one fewer, busy ends the attempt (R242, R259). -/
theorem step_of_probe {k : Nat} (hf : s.sched.fsm = .transmitGuard) (hs : s.sched.snap = some sn)
    (hg : s.sched.guardPhase = .probe k) (hp : s.radioPending = .cad) :
    (s.inputs = .radio .cadClear :: rest → step s = .next (probes sn (k - 1) (answered s rest))) ∧
    (s.inputs = .radio .cadBusy :: rest → step s = .next (outcome 0 .channelBusy (answered s rest))) := by
  have hdue := dueUrgent_of_guard hf hs (by simp [hg])
  constructor <;> intro hin
  all_goals
    rw [step_of_answer hdue hin (by rw [hp]; rfl) (by rw [hp, hf]; rfl) (by simp [hf]) hs]
    simp only [onAttemptEvent, onCad, answered, taken, hg, if_true, Bool.false_eq_true, if_false]

end

end Sys2Proof.Machine
end

section
/-! PROOFS of the family 43_gate. The settled statements. -/

namespace Sys2Proof.Machine.Gate

/-- Settles O37: the interval is a ceiling division. -/
theorem intervalIsExact : Obligations.IntervalIsExact := by
  unfold Obligations.IntervalIsExact
  intro d t hd
  refine ⟨ceilDiv_mul_ge _ d hd, fun q => ceilDiv_least _ d q hd, ?_, ?_⟩
  · exact interval_of_mul_eq (by decide) (Nat.mul_comm ..)
  · exact interval_of_mul_eq (by decide) (by rw [Config.msPerHour]; omega)

/-- Settles O38: each case of the command, and its results written by the time left. -/
theorem dcCheckCommand : Obligations.DcCheckCommand := by
  unfold Obligations.DcCheckCommand
  intro retx s i e
  have hwait : dutyInterval s - dutyElapsed s = if e < i then i - e else 0 := dutyWait_eq s
  have hflag : word (flag (dutyBlocked s && !retx)) = if e < i ∧ retx = false then 1 else 0 := dutyFlag_eq retx s
  refine check_agrees (exec_dcCheck retx s) fun _ hbudget => check_agrees hbudget fun _ hgate => ?_
  rw [hgate, setGate, hwait, hflag]
  rfl

/-- Settles O43: every answer goes to `probes` or to the outcome, which the statement writes out. -/
theorem csmaArbiter : Obligations.CsmaArbiter := by
  unfold Obligations.CsmaArbiter
  intro s rest sn hf hs launchOrProbe
  have hprobes : ∀ k, step s = .next (probes sn k (answered s rest)) → launchOrProbe k := by
    intro k h
    unfold probes at h
    show if k = 0 then _ else _
    split_ifs at h ⊢
    · exact h
    · exact h
  refine ⟨fun r hg hp hin => hprobes _ (step_of_backoffDraw hf hs hg hp hin), fun k hg hp => ?_⟩
  obtain ⟨hclear, hbusy⟩ := step_of_probe (rest := rest) hf hs hg hp
  exact ⟨fun hin => hprobes _ (hclear hin), hbusy⟩

end Sys2Proof.Machine.Gate
end

section
/-! PROOFS of the family 44_scheduler. The urgent guards, what an urgent step leaves alone, and which step is taken
(R252). -/

namespace Sys2Proof.Machine

section
variable {s : State} {sn : Snapshot} {u : Urgent} {e : Event} {rest : List Input}

/-! ### The guards (R252) -/

theorem reached_iff (s : State) (t : Option Word) (d : Nat) :
    reached s t d = true ↔ ∃ t0, t = some t0 ∧ d ≤ (s.regs.now - t0).toNat := by
  cases t with
  | none => simp [reached]
  | some t0 =>
    have h : reached s (some t0) d = true ↔ d ≤ (s.regs.now - t0).toNat := decide_eq_true_iff
    simp [h]

theorem urgentGuard_u1_iff (s : State) : urgentGuard s .u1 = true ↔ s.sched.fsm = .transmitGuard ∧
    ∃ t0 d, s.sched.guardPhase = .delay t0 d ∧ d ≤ (s.regs.now - t0).toNat := by
  cases hg : s.sched.guardPhase with
  | delay t0 d =>
    simp only [urgentGuard, hg, Bool.and_eq_true, decide_eq_true_eq]
    simp
  | _ => simp [urgentGuard, hg]

theorem dueRx1_iff (s : State) : dueRx1 s = true ↔ s.sched.fsm = .awaitingRx1 ∧
    ∃ sn t, s.sched.snap = some sn ∧ s.sched.tEnd = some t ∧ sn.rx1Delay.toNat ≤ (s.regs.now - t).toNat := by
  cases hs : s.sched.snap <;> simp [dueRx1, hs, reached_iff]

theorem dueRx2_iff (s : State) : dueRx2 s = true ↔ s.sched.fsm = .awaitingRx2 ∧
    ∃ sn t, s.sched.snap = some sn ∧ s.sched.tEnd = some t ∧ sn.rx2Delay.toNat ≤ (s.regs.now - t).toNat := by
  cases hs : s.sched.snap <;> simp [dueRx2, hs, reached_iff]

theorem deadline_iff (s : State) : deadline s = true ↔ ∃ sn t, s.sched.snap = some sn ∧ s.sched.tOpen = some t ∧
    ((s.sched.fsm = .rx1Open ∧ Config.toa sn.rx1Dr sn.rx1MaxPl ≤ (s.regs.now - t).toNat) ∨
      (s.sched.fsm = .rx2Open ∧ Config.toa sn.rx2Dr sn.rx2MaxPl ≤ (s.regs.now - t).toNat)) := by
  cases hs : s.sched.snap <;> cases hf : s.sched.fsm <;> simp [deadline, hs, hf, reached_iff]

theorem urgentGuard_u5_iff (s : State) : urgentGuard s .u5 = true ↔
    (s.sched.fsm = .awaitingRx1 ∨ s.sched.fsm = .awaitingRx2) ∧ s.radioPending = .none ∧
      (∃ sn, s.sched.snap = some sn ∧ sn.cls = 2) ∧ dueRx1 s = false ∧ dueRx2 s = false := by
  cases hs : s.sched.snap with
  | none => simp [urgentGuard, hs]
  | some sn =>
    simp only [urgentGuard, hs, Bool.and_eq_true, Bool.or_eq_true, decide_eq_true_eq, Bool.not_eq_true',
      Option.some.injEq, exists_eq_left']
    tauto

theorem urgentGuard_u6_iff (s : State) : urgentGuard s .u6 = true ↔ s.sched.fsm = .idle ∧
    bits s.regs.schedCtrl 1 0 = 2 ∧ s.regs.rxPend = false ∧ s.radioPending = .none ∧
      bits s.regs.rxBuf 8 0 + 255 ≤ 512 := by
  have hfits : rxFits (rxOff s) = true ↔ bits s.regs.rxBuf 8 0 + 255 ≤ 512 := decide_eq_true_iff
  simp only [urgentGuard, Bool.and_eq_true, Bool.not_eq_true', decide_eq_true_eq, and_assoc, hfits]
  exact Iff.rfl

/-! ### At most one urgent step is due (R252) -/

/-- The one urgent step that the FSM state leaves open: U5 only while the window's delay runs. -/
def urgentCandidate (s : State) : Option Urgent :=
  match s.sched.fsm with
  | .idle => some .u6
  | .transmitGuard => some .u1
  | .transmitting => none
  | .awaitingRx1 => some (if dueRx1 s then .u2 else .u5)
  | .awaitingRx2 => some (if dueRx2 s then .u3 else .u5)
  | .rx1Open | .rx2Open => some .u4

theorem urgentCandidate_of_guard (hu : urgentGuard s u = true) : urgentCandidate s = some u := by
  unfold urgentCandidate
  cases u with
  | u1 => rw [(urgentGuard_u1 hu).1]
  | u2 =>
    have hdue : dueRx1 s = true := hu
    rw [fsm_of_dueRx1 hdue, if_pos hdue]
  | u3 =>
    have hdue : dueRx2 s = true := hu
    rw [fsm_of_dueRx2 hdue, if_pos hdue]
  | u4 => rcases fsm_of_deadline hu with hf | hf <;> rw [hf]
  | u5 =>
    obtain ⟨hf, -, -, h1, h2⟩ := (urgentGuard_u5_iff s).1 hu
    rcases hf with hf | hf <;> simp [hf, h1, h2]
  | u6 => rw [(urgentGuard_u6 hu).1]

theorem urgentGuard_unique {v : Urgent} (hu : urgentGuard s u = true) (hv : urgentGuard s v = true) : u = v :=
  Option.some.inj ((urgentCandidate_of_guard hu).symm.trans (urgentCandidate_of_guard hv))

theorem dueUrgent_of_urgentGuard (hu : urgentGuard s u = true) : dueUrgent s = some u := by
  obtain ⟨v, hv⟩ := dueUrgent_isSome hu
  rw [hv, urgentGuard_unique hu (guard_of_dueUrgent hv)]

/-- No urgent step is due when the guard of the one the FSM state leaves open is false. -/
theorem dueUrgent_eq_none (h : ∀ u, urgentCandidate s = some u → urgentGuard s u = false) : dueUrgent s = none :=
  (dueUrgent_eq_none_iff s).2 fun u => by
    by_contra hu
    rw [Bool.not_eq_false] at hu
    exact absurd (h u (urgentCandidate_of_guard hu)) (by simp [hu])

theorem dueUrgent_transmitting (hf : s.sched.fsm = .transmitting) : dueUrgent s = none :=
  dueUrgent_eq_none (by simp [urgentCandidate, hf])

theorem dueUrgent_window (hf : s.sched.fsm = .rx1Open ∨ s.sched.fsm = .rx2Open) (hdl : deadline s = false) :
    dueUrgent s = none := by
  have hcand : urgentCandidate s = some .u4 := by rcases hf with hf | hf <;> simp [urgentCandidate, hf]
  refine dueUrgent_eq_none fun u hu => ?_
  obtain rfl : Urgent.u4 = u := Option.some.inj (hcand.symm.trans hu)
  exact hdl

/-- A request outstanding while Idle keeps RxC from being opened (R281). -/
theorem dueUrgent_idle (hf : s.sched.fsm = .idle) (hp : s.radioPending ≠ .none) : dueUrgent s = none := by
  have hcand : urgentCandidate s = some .u6 := by simp [urgentCandidate, hf]
  refine dueUrgent_eq_none fun u hu => ?_
  obtain rfl : Urgent.u6 = u := Option.some.inj (hcand.symm.trans hu)
  simp [urgentGuard, hp]

/-! ### The step taken (R252) -/

theorem step_of_urgentGuard (hu : urgentGuard s u = true) : step s = runUrgent u (taken s s.inputs) := by
  rw [step_eq, dueUrgent_of_urgentGuard hu]

theorem step_of_attemptUrgent (hu : urgentGuard s u = true) (hs : s.sched.snap = some sn) :
    step s = .next (attemptUrgent u sn (taken s s.inputs)) := by
  rw [step_of_urgentGuard hu]
  exact runUrgent_attempt (s := taken s s.inputs) u hs

theorem step_of_noUrgent (hdue : dueUrgent s = none) : step s = takeInput (taken s s.inputs) := by
  rw [step_eq, hdue]

theorem step_of_radio (hdue : dueUrgent s = none) (hin : s.inputs = .radio e :: rest) :
    step s = radioEvent e (taken s rest) :=
  (step_of_noUrgent hdue).trans (takeInput_radio hin)

/-! ### What an urgent step leaves alone (R252) -/

/-- A step that takes no input and changes no key, no RAM and no register but the outcome's. -/
structure OutcomeOnly (s t : State) : Prop where
  inputs : t.inputs = s.inputs
  busOut : t.busOut = s.busOut
  keys : t.keys = s.keys
  ram : t.ram = s.ram
  regs : t.regs = { s.regs with sendResult := t.regs.sendResult, irqStat := t.regs.irqStat }

theorem RadioOnly.outcomeOnly {s t : State} (h : RadioOnly s t) : OutcomeOnly s t :=
  ⟨h.inputs, h.busOut, h.keys, h.ram, by rw [h.regs]⟩

theorem openWindow_radioOnly (w : RxWindow) (freq : Word) (dr : Byte) (sn : Snapshot) (f : Fsm) (s : State) :
    RadioOnly s (openWindow w freq dr sn f s) := by
  constructor <;> simp [openWindow]

theorem closeWindow_outcomeOnly (s : State) : OutcomeOnly s (closeWindow s) := by
  unfold closeWindow
  split <;> exact ⟨rfl, rfl, rfl, rfl, rfl⟩

theorem attemptUrgent_outcomeOnly (u : Urgent) (sn : Snapshot) (s : State) : OutcomeOnly s (attemptUrgent u sn s) := by
  cases u with
  | u1 => exact (startCsma_radioOnly sn s).outcomeOnly
  | u2 => exact (openWindow_radioOnly _ _ _ sn _ s).outcomeOnly
  | u3 => exact (openWindow_radioOnly _ _ _ sn _ s).outcomeOnly
  | u4 =>
    obtain ⟨hin, hbus, hkeys, hram, hregs⟩ := closeWindow_outcomeOnly (emit .standby s)
    exact ⟨hin, hbus, hkeys, hram, hregs⟩
  | u5 => exact ⟨rfl, rfl, rfl, rfl, rfl⟩
  | u6 => exact ⟨rfl, rfl, rfl, rfl, rfl⟩

/-- A due urgent step does not stop and leaves alone what R252 says. -/
theorem runUrgent_outcomeOnly (h : SchedInv s) (hu : urgentGuard s u = true) :
    ∃ t, runUrgent u s = .next t ∧ OutcomeOnly s t := by
  by_cases h6 : u = .u6
  · subst h6
    exact ⟨_, rfl, rfl, rfl, rfl, rfl, rfl⟩
  · obtain ⟨sn, ha⟩ := h.attemptShape (fsm_ne_idle_of_urgentGuard h6 hu)
    exact ⟨_, runUrgent_attempt u ha.snap, attemptUrgent_outcomeOnly u sn s⟩

end

end Sys2Proof.Machine
end

section
/-! PROOFS of the family 44_scheduler. SEND and the guard of an attempt, its windows and its receptions, each as the
state that a step gives (R255-R282). -/

namespace Sys2Proof.Machine

section
variable {s : State} {sn : Snapshot} {e : Event} {rest : List Input}

/-! ### The guard of an attempt (R257-R260) -/

/-- A request emitted in a guard phase of an attempt. -/
def requested (f : Fsm) (p : GuardPhase) (q : Request) (s : State) : State :=
  { s with
    radioPending := q.pending
    radioOut := s.radioOut ++ [q]
    sched := { s.sched with fsm := f, guardPhase := p } }

/-- The transmission of the snapshot's frame (R260). -/
def txRequest (sn : Snapshot) : Request := .tx sn.txFreq sn.txDr sn.txFrame (txTimeout sn)

theorem requested_of_fsm (hf : s.sched.fsm = .transmitGuard) (p : GuardPhase) (q : Request) :
    requested .transmitGuard p q s =
      { emit q s with sched := { s.sched with guardPhase := p } } := by
  rw [requested, ← hf]
  rfl

/-- In TransmitGuard the CSMA arbiter starts with the transmission, the back-off draw or the first probe (R240, R259). -/
theorem startCsma_eq (hf : s.sched.fsm = .transmitGuard) :
    startCsma sn s =
      if sn.csmaEn = false then requested .transmitting .launch (txRequest sn) s
      else if 0 < sn.backoffMax then requested .transmitGuard .randBackoff .random s
      else if 0 < sn.difs then requested .transmitGuard (.probe sn.difs) (.cad sn.txFreq sn.txDr) s
      else requested .transmitting .launch (txRequest sn) s := by
  simp only [requested_of_fsm hf, startCsma, probes, Bool.not_eq_true', Nat.pos_iff_ne_zero, ite_not]
  rfl

/-- The delay lies in the range of RETX_CFG (R258). -/
theorem retransmitDelay_mem (hr : sn.rmin ≤ sn.rmax) (acc : Bytes) :
    sn.rmin ≤ retransmitDelay sn acc ∧ retransmitDelay sn acc ≤ sn.rmax := by
  have := Nat.mod_lt (leVal acc) (Nat.add_one_pos (sn.rmax - sn.rmin))
  simp only [retransmitDelay]
  omega

/-- A random byte for the retransmit delay (R257). -/
theorem step_of_delayByte {r : Byte} (hf : s.sched.fsm = .transmitGuard) (hs : s.sched.snap = some sn)
    (hg : s.sched.guardPhase = .randDelay) (hp : s.radioPending = .random)
    (hin : s.inputs = .radio (.random r) :: rest) :
    step s = .next (randDelayByte sn r (answered s rest)) := by
  have hdue := dueUrgent_of_guard hf hs (by simp [hg])
  rw [step_of_answer hdue hin (by rw [hp]; rfl) (by rw [hp, hf]; rfl) (by simp [hf]) hs]
  simp only [onAttemptEvent, onRandom, answered, taken, hg]

/-! ### SEND (R255, R256) -/

/-- The attempt starts: an idle RxC is closed and TransmitGuard entered (R256). -/
theorem enterGuard_eq (sn : Snapshot) (s : State) :
    enterGuard sn s = { s with
      regs := { s.regs with sendResult := 0 }
      sched := { s.sched with snap := some sn, fsm := .transmitGuard }
      radioPending := if s.radioPending = .rx .rxC then .none else s.radioPending
      radioOut := s.radioOut ++ rxcClosing s } := by
  unfold enterGuard closeRxC rxcClosing
  dsimp only
  split
  · rfl
  · simp

/-- The state in which an attempt has started with a request (R256). -/
def attemptStarted (sn : Snapshot) (s : State) (f : Fsm) (p : GuardPhase) (q : Request) (acc : Bytes) : State :=
  { s with
    regs := { s.regs with sendResult := 0 }
    sched := { s.sched with snap := some sn, fsm := f, guardPhase := p, randAcc := acc }
    radioPending := q.pending
    radioOut := s.radioOut ++ rxcClosing s ++ [q] }

theorem requested_enterGuard (sn : Snapshot) (s : State) (f : Fsm) (p : GuardPhase) (q : Request) :
    requested f p q (enterGuard sn s) = attemptStarted sn s f p q s.sched.randAcc := by
  rw [enterGuard_eq]
  rfl

/-- Every way an attempt starts (R256, R259, R260). -/
theorem startAttempt_eq (sn : Snapshot) (s : State) :
    startAttempt sn s =
      if sn.rdelay = true then attemptStarted sn s .transmitGuard .randDelay .random []
      else if sn.csmaEn = false then attemptStarted sn s .transmitting .launch (txRequest sn) s.sched.randAcc
      else if 0 < sn.backoffMax then attemptStarted sn s .transmitGuard .randBackoff .random s.sched.randAcc
      else if 0 < sn.difs then
        attemptStarted sn s .transmitGuard (.probe sn.difs) (.cad sn.txFreq sn.txDr) s.sched.randAcc
      else attemptStarted sn s .transmitting .launch (txRequest sn) s.sched.randAcc := by
  unfold startAttempt
  dsimp only
  rw [startCsma_eq (s := enterGuard sn s) rfl]
  simp only [requested_enterGuard]
  rw [enterGuard_eq]
  rfl

/-- SEND: its checks in R256's order, then the attempt. -/
theorem exec_send (retx rdelay : Bool) (s : State) :
    exec (.send retx rdelay) s =
      if s.sched.fsm ≠ .idle ∨ s.regs.rxPend = true then .next (errState .busy s)
      else if ctrlClass s = 3 ∨ txLen s = 0 ∨ (rdelay = true ∧ retxMax s < retxMin s) ∨
          (bit s.regs.schedCtrl 2 = 1 ∧ s.regs.dcMsph = 0) then .next (errState .config s)
      else if 512 < txOff s + txLen s ∨ 512 < rxOff s + 255 then .next (errState .bounds s)
      else if bit s.regs.schedCtrl 2 = 1 ∧ retx = false ∧ dutyElapsed s < dutyInterval s then
        .next (errState .duty s)
      else .next (okState (startAttempt (takeSnapshot retx rdelay s) s)) := by
  have hroom : rxFits (rxOff s) = false ↔ 512 < rxOff s + 255 := inRam_eq_false_iff (rxOff s) 255
  simp only [exec_eq_complete, commandOf, sendCommand, dcEn, dutyBlocked, complete_ok, ite_or, and_assoc,
    complete_check (e := .busy) nofun, complete_check (e := .config) nofun, complete_check (e := .bounds) nofun,
    complete_check (e := .duty) nofun, Bool.or_eq_true, Bool.and_eq_true, decide_eq_true_eq, Bool.not_eq_true',
    sbusy_iff, bitSet_true_iff, inRam_eq_false_iff, hroom]

/-! ### The windows of an attempt (R263-R267) -/

theorem openWindow_eq (w : RxWindow) (freq : Word) (dr : Byte) (sn : Snapshot) (f : Fsm) (s : State) :
    openWindow w freq dr sn f s = { s with
      sched := { s.sched with fsm := f, tOpen := some s.regs.now }
      radioPending := .rx w
      radioOut := s.radioOut ++ rxcClosing s ++ [.rx w freq dr (some (Config.toa dr 0 + sn.guardMs.toNat))] } := by
  unfold openWindow closeRxC rxcClosing
  dsimp only
  split
  · rfl
  · simp [emit, Request.pending]

theorem deadline_iff_of_window {t : Word} (hs : s.sched.snap = some sn) (ht : s.sched.tOpen = some t)
    (hf : s.sched.fsm = .rx1Open ∨ s.sched.fsm = .rx2Open) :
    deadline s = true ↔ (if s.sched.fsm = .rx1Open then Config.toa sn.rx1Dr sn.rx1MaxPl
      else Config.toa sn.rx2Dr sn.rx2MaxPl) ≤ (s.regs.now - t).toNat := by
  rw [deadline_iff]
  rcases hf with hf | hf <;> simp [hs, ht, hf]

/-- A window that stays open: a timeout closes it, a failure ends the attempt (R265, R267). -/
theorem step_of_window (hw : (s.sched.fsm = .rx1Open ∧ s.radioPending = .rx .rx1) ∨
      (s.sched.fsm = .rx2Open ∧ s.radioPending = .rx .rx2))
    (hs : s.sched.snap = some sn) (hdl : deadline s = false) :
    (s.inputs = .radio .rxTimeout :: rest → step s = .next (closeWindow (answered s rest))) ∧
    (s.inputs = .radio .rxFail :: rest → step s = .next (outcome 0 .rxHw (answered s rest))) := by
  have hdue : dueUrgent s = none := dueUrgent_window (hw.imp And.left And.left) hdl
  constructor <;> intro hin <;> obtain ⟨hf, hp⟩ | ⟨hf, hp⟩ := hw
  all_goals
    rw [step_of_answer hdue hin (by rw [hp]; rfl) (by rw [hp, hf]; rfl) (by simp [hf]) hs, hp]
    rfl

/-! ### Receptions and RxC (R266, R268, R281, R282) -/

theorem eventMatches_rxDone {b : Bytes} (h1 : 1 ≤ b.length) (h255 : b.length ≤ 255) (w : RxWindow) :
    eventMatches (.rx w) (.rxDone b) = true := by
  simp only [eventMatches, Config.maxFrame, h1, h255, decide_true, Bool.and_self]

theorem onAttemptEvent_rxDone (w : RxWindow) (sn : Snapshot) (b : Bytes) (s : State) :
    onAttemptEvent (.rx w) sn (.rxDone b) s = onAttemptFrame (windowNumber w) sn b s := by
  cases w <;> rfl

/-- A frame received in an attempt is stored and ends it. -/
theorem step_of_attemptFrame {w : RxWindow} {b : Bytes} (hs : s.sched.snap = some sn) (hp : s.radioPending = .rx w)
    (hf : s.sched.fsm ≠ .idle) (hphase : requestInPhase (.rx w) s.sched.fsm = true) (hdue : dueUrgent s = none)
    (hin : s.inputs = .radio (.rxDone b) :: rest) (h1 : 1 ≤ b.length) (h255 : b.length ≤ 255)
    (hroom : sn.rxOff + 255 ≤ 512) :
    step s = .next (outcome (windowNumber w) .ok (storeFrame sn.rxOff b (answered s rest))) := by
  rw [step_of_answer hdue hin (by rw [hp]; exact eventMatches_rxDone h1 h255 w) (by rwa [hp]) hf hs, hp,
    onAttemptEvent_rxDone]
  exact if_pos (inRam_of_rxFits (decide_eq_true hroom) h255)

/-- In a Class C attempt's gap, until the window's delay has elapsed, U5 is due (R268). -/
theorem urgentGuard_u5_of_gap {t : Word} (hs : s.sched.snap = some sn) (ht : s.sched.tEnd = some t) (hc : sn.cls = 2)
    (hp : s.radioPending = .none)
    (hgap : (s.sched.fsm = .awaitingRx1 ∧ (s.regs.now - t).toNat < sn.rx1Delay.toNat) ∨
      (s.sched.fsm = .awaitingRx2 ∧ (s.regs.now - t).toNat < sn.rx2Delay.toNat)) :
    urgentGuard s .u5 = true := by
  have h1 : dueRx1 s = false := by
    rw [Bool.eq_false_iff, Ne, dueRx1_iff]
    rcases hgap with ⟨hf, hlt⟩ | ⟨hf, -⟩
    · simpa [hf, hs, ht] using hlt
    · simp [hf]
  have h2 : dueRx2 s = false := by
    rw [Bool.eq_false_iff, Ne, dueRx2_iff]
    rcases hgap with ⟨hf, -⟩ | ⟨hf, hlt⟩
    · simp [hf]
    · simpa [hf, hs, ht] using hlt
  exact (urgentGuard_u5_iff s).2 ⟨hgap.imp And.left And.left, hp, ⟨sn, hs, hc⟩, h1, h2⟩

/-- With no urgent step due, an event that answers RxC while Idle is handled in the next step (R282). -/
theorem step_of_idleAnswer (hdue : dueUrgent s = none) (hin : s.inputs = .radio e :: rest)
    (hf : s.sched.fsm = .idle) (hp : s.radioPending = .rx .rxC) (hm : eventMatches (.rx .rxC) e = true) :
    step s = onIdleRxC e (answered s rest) := by
  rw [step_of_radio hdue hin]
  exact radioEvent_idle (s := taken s rest) (by rwa [← hp] at hm) (by simp [taken, hp, hf, requestInPhase]) hf

/-- A frame received by RxC while Idle is stored and raises IRQ_STAT.RXC (R282). -/
theorem step_of_idleFrame {b : Bytes} (hf : s.sched.fsm = .idle) (hp : s.radioPending = .rx .rxC)
    (hin : s.inputs = .radio (.rxDone b) :: rest) (h1 : 1 ≤ b.length) (h255 : b.length ≤ 255)
    (hroom : s.sched.rxcOff + 255 ≤ 512) :
    step s = .next { storeFrame s.sched.rxcOff b (answered s rest) with
      regs := { (storeFrame s.sched.rxcOff b (answered s rest)).regs with irqStat := s.regs.irqStat ||| irqRxC } } := by
  have hdue : dueUrgent s = none := dueUrgent_idle hf (by simp [hp])
  rw [step_of_idleAnswer hdue hin hf hp (eventMatches_rxDone h1 h255 .rxC)]
  exact if_pos (inRam_of_rxFits (decide_eq_true hroom) h255)

/-- A timeout or a failure of RxC only frees the radio, while Idle and in an attempt's gaps (R268, R282). -/
theorem step_of_rxcEmpty (hphase : s.sched.fsm = .idle ∨
      ((s.sched.fsm = .awaitingRx1 ∨ s.sched.fsm = .awaitingRx2) ∧ s.sched.snap.isSome = true))
    (hp : s.radioPending = .rx .rxC) (hdue : dueUrgent s = none) (hin : s.inputs = .radio e :: rest)
    (he : e = .rxTimeout ∨ e = .rxFail) : step s = .next (answered s rest) := by
  have hm : eventMatches (.rx .rxC) e = true := by rcases he with rfl | rfl <;> rfl
  rcases hphase with hf | ⟨hf, hsome⟩
  · rw [step_of_idleAnswer hdue hin hf hp hm]
    rcases he with rfl | rfl <;> rfl
  · obtain ⟨sn, hs⟩ := Option.isSome_iff_exists.1 hsome
    have hfits : requestInPhase s.radioPending s.sched.fsm = true := by
      rcases hf with hf | hf <;> simp [hp, hf, requestInPhase]
    rw [step_of_answer hdue hin (by rwa [hp]) hfits (by rcases hf with hf | hf <;> simp [hf]) hs, hp]
    rcases he with rfl | rfl <;> rfl

/-- An event that does not match the pending request (R274). -/
theorem step_of_unmatched (hdue : dueUrgent s = none) (hin : s.inputs = .radio e :: rest)
    (hm : eventMatches s.radioPending e = false) : step s = .next (taken s rest) := by
  rw [step_of_radio hdue hin]
  exact radioEvent_ignored (s := taken s rest) hm

end

end Sys2Proof.Machine
end

section
/-! PROOFS of the family 44_scheduler. The settled statements. -/

namespace Sys2Proof.Machine.Scheduler

/-- Settles O39: the checks of `exec_send`, then the ways of starting of `startAttempt_eq`. -/
theorem sendCommand : Obligations.SendCommand := by
  unfold Obligations.SendCommand
  intro retx rdelay s i g dcOn dr off len
  refine check_agrees (exec_send retx rdelay s) fun _ hconfig => check_agrees hconfig fun _ hbounds =>
    check_agrees hbounds fun _ hduty => check_agrees hduty fun _ hstart => ?_
  intro sn start tx
  have hsn : takeSnapshot retx rdelay s = sn := rfl
  have htx : txRequest sn = tx := by simp only [txRequest, txTimeout, sn, memRead_length]; rfl
  have hcsma : sn.csmaEn = false ↔ bit g.schedCtrl 3 = 0 := bitSet_false_iff g.schedCtrl 3
  rw [hsn, startAttempt_eq, htx] at hstart
  simp only [hcsma] at hstart
  split_ifs at hstart ⊢
  all_goals exact hstart

/-- Settles O40: each guard by its own law; the FSM state leaves at most one step open. -/
theorem urgentGuards : Obligations.UrgentGuards := by
  unfold Obligations.UrgentGuards
  intro s
  exact ⟨urgentGuard_u1_iff s, dueRx1_iff s, dueRx2_iff s, deadline_iff s, urgentGuard_u5_iff s, urgentGuard_u6_iff s,
    fun _ _ => urgentGuard_unique⟩

/-- Settles O41: the due urgent step runs on the state `taken`, which no guard and no invariant tells from `s`. -/
theorem urgentStepsGoFirst : Obligations.UrgentStepsGoFirst := by
  unfold Obligations.UrgentStepsGoFirst
  intro s u hinv hu
  have hinv' : SchedInv (taken s s.inputs) := hinv.congr rfl rfl (fun _ _ => rfl) id
  have hu' : urgentGuard (taken s s.inputs) u = true :=
    guard_of_dueUrgent ((dueUrgent_taken s _).trans (dueUrgent_of_urgentGuard hu))
  obtain ⟨t, ht, hin, hbus, hkeys, hram, hregs⟩ := runUrgent_outcomeOnly hinv' hu'
  exact ⟨t, (step_of_urgentGuard hu).trans ht, hin, hbus, hkeys, hram, hregs⟩

/-- Settles O42: the two bytes by `randDelayByte`, the elapsed delay by `startCsma_eq`. -/
theorem randomRetransmitDelay : Obligations.RandomRetransmitDelay := by
  unfold Obligations.RandomRetransmitDelay
  intro s rest r r0 sn hf hs hr d
  have hd : retransmitDelay sn [r0, r] = d := by simp [retransmitDelay, leVal, d]
  obtain ⟨hmin, hmax⟩ := hd ▸ retransmitDelay_mem hr [r0, r]
  refine ⟨hmin, hmax, fun hg hp hin => ?_, fun t0 e hg he => ?_⟩
  · have hstep := step_of_delayByte hf hs hg hp hin
    constructor <;> intro hacc <;> rw [hstep]
    · simp [randDelayByte, answered, taken, hacc, emit, Request.pending, hp]
    · simp [randDelayByte, answered, taken, hacc, hd]
  · intro started tx
    have hu : urgentGuard s .u1 = true := (urgentGuard_u1_iff s).2 ⟨hf, t0, e, hg, he⟩
    have hstep : step s = .next (startCsma sn (taken s s.inputs)) := step_of_attemptUrgent hu hs
    rw [startCsma_eq (s := taken s s.inputs) hf] at hstep
    split_ifs at hstep ⊢
    all_goals exact hstep

/-- Settles O46: U4 at the deadline, and before it the answers of `step_of_window`. -/
theorem windowsClose : Obligations.WindowsClose := by
  unfold Obligations.WindowsClose
  intro s rest sn t hs ht hw due ended closed
  have hdl : deadline s = true ↔ due := deadline_iff_of_window hs ht (hw.imp And.left And.left)
  have hopen (h : ¬ due) := step_of_window (rest := rest) hw hs (Bool.eq_false_iff.2 (mt hdl.1 h))
  exact ⟨fun h => step_of_attemptUrgent (u := .u4) (hdl.2 h) hs, fun h => (hopen h).1, fun h => (hopen h).2⟩

/-- Settles O47: the frame is stored and the outcome is the window's. -/
theorem attemptReceives : Obligations.AttemptReceives := by
  unfold Obligations.AttemptReceives
  intro s rest sn w b hs hp hf hphase hdue hin h1 h255 hroom
  refine ⟨_, stored_of_length_le h255 hroom s.ram, ?_⟩
  rw [step_of_attemptFrame hs hp hf hphase hdue hin h1 h255 hroom, ← setRxLen_eq _ _ h255]
  cases w <;> rfl

/-- Settles O48: U6 and U5 open RxC; its answers are those of `step_of_idleFrame` and `step_of_rxcEmpty`. -/
theorem continuousWindow : Obligations.ContinuousWindow := by
  unfold Obligations.ContinuousWindow
  intro s rest
  refine ⟨fun hf hc hx hp hroom => ?_, fun sn t hs ht hc hp hgap => ?_, fun b hf hp hin h1 h255 hroom => ?_,
    fun hphase hp hdue hin => ?_⟩
  · exact step_of_urgentGuard ((urgentGuard_u6_iff s).2 ⟨hf, hc, hx, hp, hroom⟩)
  · exact step_of_attemptUrgent (urgentGuard_u5_of_gap hs ht hc hp hgap) hs
  · refine ⟨_, stored_of_length_le h255 hroom s.ram, ?_⟩
    rw [step_of_idleFrame hf hp hin h1 h255 hroom, ← setRxLen_eq _ _ h255]
    rfl
  · rcases hin with hin | hin
    · exact step_of_rxcEmpty hphase hp hdue hin (.inl rfl)
    · exact step_of_rxcEmpty hphase hp hdue hin (.inr rfl)

/-- Settles O49: each pending request is matched by its own events only. -/
theorem unmatchedEventIsIgnored : Obligations.UnmatchedEventIsIgnored := by
  unfold Obligations.UnmatchedEventIsIgnored
  intro s rest e hdue hin hne
  refine step_of_unmatched hdue hin (Bool.eq_false_iff.2 fun hm => ?_)
  cases hp : s.radioPending with rw [hp] at hm
  | none | standby => cases hm
  | random =>
    obtain ⟨r, rfl⟩ := eventMatches_random hm
    exact hne hp
  | cad => obtain rfl | rfl := eventMatches_cad hm <;> exact hne hp
  | tx => obtain rfl | rfl := eventMatches_tx hm <;> exact hne hp
  | rx w => obtain ⟨b, rfl, -⟩ | rfl | rfl := eventMatches_rx hm <;> exact hne w hp

/-- Settles O5: with no urgent step due a step is `takeInput`, case by case of the waiting inputs. -/
theorem stepTakesTheNextInput : Obligations.StepTakesTheNextInput := by
  unfold Obligations.StepTakesTheNextInput
  intro s rest hdue
  have hstep := step_of_noUrgent hdue
  exact ⟨fun h => hstep.trans (takeInput_nil h), fun h => hstep.trans (takeInput_clock h),
    fun _ h => hstep.trans (takeInput_host h), fun _ h => hstep.trans (takeInput_radio h)⟩

/-- Settles O44: both answers to the transmission, with no urgent step due while it runs. -/
theorem transmissionEnds : Obligations.TransmissionEnds := by
  unfold Obligations.TransmissionEnds
  intro s rest sn hf hp hs
  have hdue : dueUrgent s = none := dueUrgent_transmitting hf
  constructor <;> intro hin
  all_goals
    rw [step_of_answer hdue hin (by rw [hp]; rfl) (by rw [hp, hf]; rfl) (by simp [hf]) hs]
    rfl

/-- Settles O45: U2 and U3, each an `openWindow`. -/
theorem windowsOpen : Obligations.WindowsOpen := by
  unfold Obligations.WindowsOpen
  intro s sn t hs ht
  refine ⟨fun hf hle => ?_, fun hf hle => ?_⟩
  · have hu : urgentGuard s .u2 = true := (dueRx1_iff s).2 ⟨hf, sn, t, hs, ht, hle⟩
    rw [step_of_attemptUrgent hu hs, attemptUrgent, openWindow_eq]
    rfl
  · have hu : urgentGuard s .u3 = true := (dueRx2_iff s).2 ⟨hf, sn, t, hs, ht, hle⟩
    rw [step_of_attemptUrgent hu hs, attemptUrgent, openWindow_eq]
    rfl

end Sys2Proof.Machine.Scheduler
end

section
/-! PROOFS of the family 60_exceptions. The code a command raises is the first failure of its checks (R301, R305). -/

namespace Sys2Proof.Machine

/-! ### One check at a time -/

/-- The code a command's checks raise, if one of them fails. -/
def raisedCode : Except Code State → Option Code
  | .ok _ => none
  | .error c => some c

theorem raisedCode_ok (u : State) : raisedCode (.ok u) = firstFailure [] := rfl

/-- A check of the command against the first row of R305's table. -/
theorem raisedCode_check {b : Bool} {p : Prop} [Decidable p] {c : Code} {x : Except Code State}
    {l : List (Bool × Code)} (hb : b = true ↔ p) (hx : raisedCode x = firstFailure l) :
    raisedCode (if p then .error c else x) = firstFailure ((b, c) :: l) := by
  simp only [firstFailure, hb]
  split
  · rfl
  · exact hx

/-- A check of the command against two rows of R305's table that raise the same code. -/
theorem raisedCode_check_or {a b : Bool} {c : Code} {x : Except Code State} {l : List (Bool × Code)}
    (hx : raisedCode x = firstFailure l) :
    raisedCode (if (a || b) = true then .error c else x) = firstFailure ((a, c) :: (b, c) :: l) := by
  cases a with
  | true => rfl
  | false => exact (raisedCode_check (b := b) .rfl hx :)

theorem pastRam_iff (a n : Nat) : pastRam a n = true ↔ (!inRam a n) = true := by rw [inRam_eq]

theorem pastRam_or_iff (a n b m : Nat) :
    (pastRam a n || pastRam b m) = true ↔ (!inRam a n || !inRam b m) = true := by rw [inRam_eq, inRam_eq]

theorem widthRow_iff (len : Nat) : (decide (len < 1) || decide (8 < len)) = true ↔ (!lenWidth len) = true := by
  rw [lenWidth_iff, Bool.or_eq_true, decide_eq_true_iff, decide_eq_true_iff]

/-! ### Every command against its rows (R305) -/

section
variable (s : State)

theorem ecbCommand_raises (f : Block → Block → Block) (ks : Fin 8) (len : Nat) :
    raisedCode (ecbCommand f ks len s) = firstFailure (checks (.aesEnc ks len) s) :=
  raisedCode_check decide_eq_true_iff <| raisedCode_check (pastRam_or_iff ..) <| raisedCode_ok _

theorem storeCommand_raises (enc : Nat → Nat → Bytes) (len : Nat) :
    raisedCode (storeCommand enc len s) = firstFailure (checks (.storeLe len) s) :=
  raisedCode_check (widthRow_iff len) <| raisedCode_check (pastRam_iff ..) <| raisedCode_ok _

theorem loadCommand_raises (val : Bytes → Nat) (len : Nat) :
    raisedCode (loadCommand val len s) = firstFailure (checks (.loadLe len) s) :=
  raisedCode_check (widthRow_iff len) <| raisedCode_check (pastRam_iff ..) <| raisedCode_ok _

theorem parseDownlinkCommand_raises (rev : Rev) (n : Nat) :
    raisedCode (parseDownlinkCommand rev n s) = firstFailure (downlinkChecks rev n s) :=
  raisedCode_check .rfl <| raisedCode_check (pastRam_or_iff ..) <| raisedCode_check decide_eq_true_iff <|
    raisedCode_check decide_eq_true_iff <| raisedCode_check_or <| raisedCode_check decide_eq_true_iff <|
      raisedCode_check decide_eq_true_iff <| raisedCode_check_or <| raisedCode_ok _

theorem parseJoinaccCommand_raises (rev : Rev) (n : Nat) :
    raisedCode (parseJoinaccCommand rev n s) = firstFailure (joinChecks rev n s) := by
  have hlen : (decide (n ≠ 17) && decide (n ≠ 33)) = true ↔ n ≠ 17 ∧ n ≠ 33 := by simp
  have hversion (b : Bool) : (decide (rev = .r11) && !b) = true ↔ rev = .r11 ∧ b = false := by simp
  exact raisedCode_check .rfl <| raisedCode_check (pastRam_or_iff ..) <| raisedCode_check hlen <|
    raisedCode_check (hversion _) <| raisedCode_check decide_eq_true_iff <| raisedCode_check .rfl <| raisedCode_ok _

theorem sendCommand_raises (retx rdelay : Bool) :
    raisedCode (sendCommand retx rdelay s) = firstFailure (sendChecks retx rdelay s) :=
  raisedCode_check .rfl <| raisedCode_check decide_eq_true_iff <| raisedCode_check decide_eq_true_iff <|
    raisedCode_check .rfl <| raisedCode_check .rfl <| raisedCode_check (pastRam_or_iff ..) <|
      raisedCode_check .rfl <| raisedCode_ok _

/-- DC_CHECK's one check counts only while the gate is enabled (R235). -/
theorem dcCheck_raises (retx : Bool) :
    raisedCode (commandOf (.dcCheck retx) s) = firstFailure (checks (.dcCheck retx) s) := by
  simp only [commandOf, checks]
  cases dcEn s with
  | false => rfl
  | true => exact raisedCode_check decide_eq_true_iff <| raisedCode_ok _

/-- A command raises the code of the first row of R305's table that fails, and none when no row does. -/
theorem commandOf_raises (i : Instr) : raisedCode (commandOf i s) = firstFailure (checks i s) := by
  cases i with
  | nop => exact raisedCode_ok _
  | wipe => exact raisedCode_check .rfl <| raisedCode_ok _
  | softReset => exact raisedCode_check .rfl <| raisedCode_ok _
  | aesEnc ks len => exact ecbCommand_raises s aesEnc ks len
  | aesDec ks len => exact ecbCommand_raises s aesDec ks len
  | cmac ks len => exact raisedCode_check (pastRam_iff ..) <| raisedCode_ok _
  | ctrCrypt ks dir single len =>
    exact raisedCode_check .rfl <| raisedCode_check (pastRam_or_iff ..) <| raisedCode_ok _
  | mic ks dir rev append verify len =>
    exact raisedCode_check .rfl <| raisedCode_check (pastRam_iff ..) <| raisedCode_check .rfl <| raisedCode_ok _
  | kdf ks len =>
    exact raisedCode_check decide_eq_true_iff <| raisedCode_check (pastRam_iff ..) <| raisedCode_ok _
  | deriveSession rev => exact raisedCode_ok _
  | deriveJs rev =>
    cases rev with
    | r10 => rfl
    | r11 => rfl
  | storeLe len => exact storeCommand_raises s leBytes len
  | storeBe len => exact storeCommand_raises s beBytes len
  | loadLe len => exact loadCommand_raises s leVal len
  | loadBe len => exact loadCommand_raises s beVal len
  | fctrlPack => exact raisedCode_check decide_eq_true_iff <| raisedCode_ok _
  | fctrlUnpack => exact raisedCode_ok _
  | buildUplink rev len =>
    exact raisedCode_check .rfl <| raisedCode_check .rfl <| raisedCode_check (pastRam_or_iff ..) <|
      raisedCode_check .rfl <| raisedCode_ok _
  | parseDownlink rev len => exact parseDownlinkCommand_raises s rev len
  | buildJoinreq rev => exact raisedCode_check (pastRam_iff ..) <| raisedCode_ok _
  | parseJoinacc rev len => exact parseJoinaccCommand_raises s rev len
  | fcntInfer => exact raisedCode_ok _
  | checksum verify append =>
    exact raisedCode_check .rfl <| raisedCode_check (pastRam_iff ..) <| raisedCode_check .rfl <| raisedCode_ok _
  | dcCheck retx => exact dcCheck_raises s retx
  | send retx rdelay => exact sendCommand_raises s retx rdelay

end

/-! ### How a command that raises ends (R101, R301) -/

/-- The codes that commands raise are those of R305's table, 2 to 12. -/
theorem codeNumber_of_commandOf_error {i : Instr} {s : State} {c : Code} (h : commandOf i s = .error c) :
    2 ≤ codeNumber c ∧ codeNumber c ≤ 12 := by
  have hends := commandOf_ends s i
  rwa [h] at hends

theorem exec_of_commandOf_error {i : Instr} {s : State} {c : Code} (h : commandOf i s = .error c) :
    exec i s = .next (errState c s) := by
  refine exec_error ?_ h
  rintro rfl
  exact absurd (codeNumber_of_commandOf_error h) (by decide)

end Sys2Proof.Machine
end

section
/-! PROOFS of the family 60_exceptions. The settled statements. -/

namespace Sys2Proof.Machine

/-- Settles O7: the checks of a command pass or raise a code of R305's table, and the epilogue follows. -/
theorem commandErrorsArePrecise : Obligations.CommandErrorsArePrecise := by
  unfold Obligations.CommandErrorsArePrecise
  intro i s
  cases h : commandOf i s with
  | ok t => exact .inl ⟨t, exec_ok h⟩
  | error c =>
    obtain ⟨hlo, hhi⟩ := codeNumber_of_commandOf_error h
    exact .inr ⟨c, hlo, hhi, exec_of_commandOf_error h⟩

/-- Settles O8: the code a command raises is the first failure of its rows of R305, and an illegal word runs none. -/
theorem firstFailedCheckIsReported : Obligations.FirstFailedCheckIsReported := by
  unfold Obligations.FirstFailedCheckIsReported
  refine fun s => ⟨fun i => ?_, fun w e he => issueCommand_of_error he s⟩
  rw [← commandOf_raises s i]
  cases h : commandOf i s with
  | ok t => exact ⟨t, exec_ok h⟩
  | error c => exact exec_of_commandOf_error h

end Sys2Proof.Machine
end

section
/-! PROOFS of the family 70_reset_and_hazards.
The scheduler's steps commute with a change of the keys (R346), and the reset state (R330, R332). -/

namespace Sys2Proof.Machine

/-! ### Other keys in the same state -/

/-- The state with the keys `k` in the slots and everything else as it is. -/
def rekey (k : Vector Block 8) (s : State) : State := { s with keys := k }

/-- The same outcome of a step, with the keys `k` in its next state. -/
def rekeyOutcome (k : Vector Block 8) : Host.Outcome State Fault Refusal → Host.Outcome State Fault Refusal
  | .next t => .next (rekey k t)
  | .fault r => .fault r
  | .refused r => .refused r

@[simp] theorem rekeyOutcome_next (k : Vector Block 8) (t : State) : rekeyOutcome k (.next t) = .next (rekey k t) := rfl

section
variable (k : Vector Block 8) (s : State)

@[simp] theorem rekey_keys : (rekey k s).keys = k := rfl
@[simp] theorem rekey_sched : (rekey k s).sched = s.sched := rfl
@[simp] theorem rekey_inputs : (rekey k s).inputs = s.inputs := rfl

@[simp] theorem taken_rekey (l : List Input) : taken (rekey k s) l = rekey k (taken s l) := rfl

/-- A condition reads no key, so that with the new keys in its branches the two sides are the same by definition. -/
theorem closeRxC_rekey : closeRxC (rekey k s) = rekey k (closeRxC s) := by
  unfold closeRxC
  rw [apply_ite (rekey k)]
  rfl

/-! ### The guard and the windows (R257-R265) -/

variable (sn : Snapshot)

theorem probes_rekey (n : Nat) : probes sn n (rekey k s) = rekey k (probes sn n s) := by
  unfold probes
  split <;> rfl

theorem startCsma_rekey : startCsma sn (rekey k s) = rekey k (startCsma sn s) := by
  unfold startCsma
  split
  · rfl
  split
  · rfl
  · exact probes_rekey k s sn _

theorem openWindow_rekey (w : RxWindow) (freq : Word) (dr : Byte) (f : Fsm) :
    openWindow w freq dr sn f (rekey k s) = rekey k (openWindow w freq dr sn f s) := by
  simp only [openWindow, closeRxC_rekey]
  rfl

theorem closeWindow_rekey : closeWindow (rekey k s) = rekey k (closeWindow s) := by
  unfold closeWindow
  rw [apply_ite (rekey k)]
  rfl

theorem randDelayByte_rekey (r : Byte) : randDelayByte sn r (rekey k s) = rekey k (randDelayByte sn r s) := by
  unfold randDelayByte
  dsimp only
  rw [apply_ite (rekey k)]
  rfl

/-! ### Urgent steps (R252) -/

/-- No guard reads a key. -/
theorem dueUrgent_rekey : dueUrgent (rekey k s) = dueUrgent s := by
  have h : urgentGuard (rekey k s) = urgentGuard s := by funext u; cases u <;> rfl
  rw [dueUrgent, h, dueUrgent]

theorem attemptUrgent_rekey (u : Urgent) :
    attemptUrgent u sn (rekey k s) = rekey k (attemptUrgent u sn s) := by
  cases u with
  | u1 => exact startCsma_rekey k s sn
  | u2 => exact openWindow_rekey k s sn _ _ _ _
  | u3 => exact openWindow_rekey k s sn _ _ _ _
  | u4 => exact closeWindow_rekey k (emit .standby s)
  | u5 => rfl
  | u6 => rfl

theorem runUrgent_rekey (u : Urgent) : runUrgent u (rekey k s) = rekeyOutcome k (runUrgent u s) := by
  cases hs : s.sched.snap with
  | some sn =>
    have hs' : (rekey k s).sched.snap = some sn := hs
    rw [runUrgent_attempt u hs, runUrgent_attempt u hs', attemptUrgent_rekey, rekeyOutcome_next]
  | none =>
    simp only [runUrgent, rekey_sched, hs]
    cases u <;> rfl

/-! ### Radio events (R251-R282) -/

theorem onRandom_rekey (r : Byte) : onRandom sn r (rekey k s) = rekeyOutcome k (onRandom sn r s) := by
  simp only [onRandom, rekey_sched]
  split
  · exact congrArg Host.Outcome.next (randDelayByte_rekey k s sn r)
  · exact congrArg Host.Outcome.next (probes_rekey k s sn _)
  · rfl

theorem onCad_rekey (clear : Bool) : onCad sn clear (rekey k s) = rekeyOutcome k (onCad sn clear s) := by
  simp only [onCad, rekey_sched]
  split
  · cases clear with
    | false => rfl
    | true => exact congrArg Host.Outcome.next (probes_rekey k s sn _)
  · rfl

theorem onAttemptFrame_rekey (w : Nat) (b : Bytes) :
    onAttemptFrame w sn b (rekey k s) = rekeyOutcome k (onAttemptFrame w sn b s) := by
  unfold onAttemptFrame
  split <;> rfl

theorem onIdleRxC_rekey (e : Event) : onIdleRxC e (rekey k s) = rekeyOutcome k (onIdleRxC e s) := by
  unfold onIdleRxC
  split
  · unfold onIdleFrame
    rw [apply_ite (rekeyOutcome k)]
    rfl
  · rfl

theorem onWindowEvent_rekey (w : RxWindow) (e : Event) :
    onWindowEvent w sn e (rekey k s) = rekeyOutcome k (onWindowEvent w sn e s) := by
  unfold onWindowEvent
  split
  · exact onAttemptFrame_rekey k s sn _ _
  · rfl
  · exact congrArg Host.Outcome.next (closeWindow_rekey k s)

theorem onAttemptRxC_rekey (e : Event) : onAttemptRxC sn e (rekey k s) = rekeyOutcome k (onAttemptRxC sn e s) := by
  unfold onAttemptRxC
  split
  · exact onAttemptFrame_rekey k s sn _ _
  · rfl

/-- An answer to a receive goes to RxC or to the window that asked. -/
theorem onAttemptEvent_rekey (p : Pending) (e : Event) :
    onAttemptEvent p sn e (rekey k s) = rekeyOutcome k (onAttemptEvent p sn e s) := by
  cases e with
  | random r => exact onRandom_rekey k s sn r
  | cadClear => exact onCad_rekey k s sn true
  | cadBusy => exact onCad_rekey k s sn false
  | txDone => rfl
  | txFail => rfl
  | rxDone _ | rxTimeout | rxFail =>
    unfold onAttemptEvent
    dsimp only
    split
    · exact onAttemptRxC_rekey k s sn _
    · exact onWindowEvent_rekey k s sn _ _
    · rfl

theorem radioEvent_rekey (e : Event) : radioEvent e (rekey k s) = rekeyOutcome k (radioEvent e s) := by
  unfold radioEvent
  rw [apply_ite (rekeyOutcome k), apply_ite (rekeyOutcome k)]
  refine if_congr Iff.rfl rfl (if_congr Iff.rfl rfl ?_)
  dsimp only [rekey_sched]
  split
  · exact onIdleRxC_rekey k { s with radioPending := .none } e
  · exact onAttemptEvent_rekey k { s with radioPending := .none } _ _ e
  · rfl

/-! ### Steps -/

variable {s}

/-- Every input but a host access ignores the keys. -/
theorem takeInput_rekey (h : ∀ a rest, s.inputs ≠ .host a :: rest) :
    takeInput (rekey k s) = rekeyOutcome k (takeInput s) := by
  simp only [takeInput, rekey_inputs]
  split
  · rfl
  · rfl
  next a rest hin => exact absurd hin (h a rest)
  next e rest _ => exact radioEvent_rekey k { s with inputs := rest } e

/-- A step that is no host access ignores the keys (R346). -/
theorem step_rekey (h : ∀ a rest, s.inputs = .host a :: rest → dueUrgent s ≠ none) :
    step (rekey k s) = rekeyOutcome k (step s) := by
  simp only [step_eq, dueUrgent_rekey, rekey_inputs, taken_rekey]
  cases hdue : dueUrgent s with
  | some u => exact runUrgent_rekey k _ u
  | none => exact takeInput_rekey k fun a rest hin => h a rest hin hdue

end

/-! ### The reset state (R330, R332) -/

theorem reset_inv : Inv State.reset :=
  (inv_iff _).2 ⟨reset_memory_wf, resetRegs_legal Config.now0, IdleShape.schedInv ⟨rfl, rfl, rfl, rfl, .inl rfl⟩⟩

theorem readReg_reset {r : Reg} (h : r ≠ .now) : readReg State.reset r = 0 := by
  cases r with
  | now => exact absurd rfl h
  | status | schedState => decide
  | _ => rfl

/-- Reset leaves no attempt to go on with, and Class A, in which no RxC opens. -/
theorem urgentGuard_reset (u : Urgent) : urgentGuard State.reset u = false := by
  rw [Bool.eq_false_iff]
  intro h
  by_cases hu : u = .u6
  · subst hu
    obtain ⟨-, hclass, -⟩ := urgentGuard_u6 h
    exact absurd hclass (by decide)
  · exact fsm_ne_idle_of_urgentGuard hu h rfl

/-- After reset TX_BUF.LEN is 0, which SEND refuses (R256, R332). -/
theorem sendCommand_reset (retx rdelay : Bool) : sendCommand retx rdelay State.reset = .error .config := by
  have hidle : (sbusy State.reset || State.reset.regs.rxPend) = false := by decide
  have hclass : ctrlClass State.reset ≠ 3 := by decide
  have hlen : txLen State.reset = 0 := by decide
  rw [sendCommand, hidle, if_neg nofun, if_neg hclass, if_pos hlen]

end Sys2Proof.Machine
end

section
/-! PROOFS of the family 70_reset_and_hazards. The settled statements. -/

namespace Sys2Proof.Machine

/-- Settles O57: the step commutes with a change of the keys; that it changes none itself is the case of putting back the
keys that are there. -/
theorem schedulerIgnoresKeys : Obligations.SchedulerIgnoresKeys := by
  unfold Obligations.SchedulerIgnoresKeys
  intro s t k hin hstep
  have hrekey (k : Vector Block 8) : step (rekey k s) = .next (rekey k t) := by
    rw [step_rekey k hin, hstep, rekeyOutcome_next]
  have hsame : t = rekey s.keys t := Host.Outcome.next.inj (hstep.symm.trans (hrekey s.keys))
  exact ⟨hrekey k, (congrArg State.keys hsame).trans (rekey_keys _ _)⟩

/-- Settles O59: each clause by its own lemma about the reset state. -/
theorem resetState : Obligations.ResetState := by
  unfold Obligations.ResetState
  exact ⟨reset_inv, fun _ => readReg_reset, rfl, zeroKeys_getElem, rfl, rfl, rfl, by decide, urgentGuard_reset,
    fun retx rdelay => exec_error nofun (sendCommand_reset retx rdelay)⟩

end Sys2Proof.Machine
end
